-- ==== Sys2Proof/Word.lean ====
section
/-! DEFINITION. The widths of the core: bytes, 32-bit words and byte strings (00_scope.md R8, R9; 20_memory.md R51). -/

namespace Sys2Proof

/-- A byte is 8 bits (R9, R51); every payload, key, digest and output element is one. -/
abbrev Byte := BitVec 8

/-- A 32-bit unsigned word: the MD5 registers and the Encoder's temporary (R28, R175). -/
abbrev Word := BitVec 32

/-- A byte string: element 0 is the first byte presented, the leftmost when written as text (R9). -/
abbrev Bytes := List Byte

end Sys2Proof
end

