-- ==== Sys2Proof/Syntax.lean ====
section
/-! DEFINITION. The commands (one constructor per row of opcode_table.json), the fields of format `C`, and the two halves
of a command transaction (30_encoding.md R70 to R72, R76). -/

namespace Sys2Proof

/-- The three commands (R2, R72). A command's only operand is its payload, which the host places in the interface
registers `ILEN` and `IN` (R70, R73), so no constructor has an argument. -/
inductive Instr where
  /-- `GEN.V1`, command word 0x00 (R130). -/
  | genV1
  /-- `GEN.V2`, command word 0x01 (R131). -/
  | genV2
  /-- `ENC`, command word 0x02 (R100). -/
  | enc
  deriving DecidableEq, Repr

/-- The two fields of the command word, format `C` (R71): `CMD[7:2]` and `CMD[1:0]`. -/
structure FormatC where
  rsv : BitVec 6
  op : BitVec 2
  deriving DecidableEq, Repr

/-- What the host presents: `(CMD, ILEN, IN[0..ILEN-1])` (R70). -/
structure Transaction where
  cmd : Byte
  ilen : Nat
  payload : Bytes
  deriving DecidableEq, Repr

/-- What the core returns: `(STATUS, OLEN, OUT[0..OLEN-1])` (R70, R76). -/
structure Response where
  status : Byte
  olen : Nat
  out : Bytes
  deriving DecidableEq, Repr

/-- The variant identifier an external caller provides (R74, R146). -/
inductive Variant where
  | v1
  | v2
  deriving DecidableEq, Repr

end Sys2Proof
end

