-- ==== Sys2Proof/WellFormed.lean ====
section
/-! DEFINITION. The checks on command words, transactions and responses (30_encoding.md R70, R71, R76, R77). -/

namespace Sys2Proof

/-- The fields of a command word that is not reserved: `rsv` must be 0 and `op` 3 is reserved (R71, R72). -/
def FormatC.wf (f : FormatC) : Bool := f.rsv == 0 && f.op != 3

/-- A transaction as R70 describes it: `ILEN` is the count of payload bytes (host assumption A3). -/
def Transaction.wf (t : Transaction) : Bool := t.ilen == t.payload.length

/-- A response as R76 and R77 describe it: `OLEN` bytes, a status in 0..3, and an empty output on every error. -/
def Response.wf (r : Response) : Bool :=
  r.olen == r.out.length && r.status.toNat ≤ 3 && (r.status == 0 || r.olen == 0)

end Sys2Proof
end

