-- ==== Sys2Proof/Decode.lean ====
section
/-! DEFINITION. The decoder of the command word, total on any byte, and the encoder (30_encoding.md R71, R72, R75, R78). -/

namespace Sys2Proof

/-- Why a command word is rejected (R78): both kinds are reserved words. -/
inductive DecodeError where
  /-- `rsv = 0` and `op = 3`: the word 0x03. -/
  | reservedOp
  /-- `rsv ≠ 0`: the words 0x04 to 0xFF. -/
  | reservedField (rsv : BitVec 6)
  deriving DecidableEq, Repr

/-- The fields of a command word (R71). -/
def formatC (cmd : Byte) : FormatC where
  rsv := cmd.extractLsb' 2 6
  op := cmd.extractLsb' 0 2

/-- The decoder compares the whole byte (R72): mask 0xFF for every row. Every other word is rejected by name (R78). -/
def decode (cmd : Byte) : Except DecodeError Instr :=
  if cmd = 0x00 then .ok .genV1
  else if cmd = 0x01 then .ok .genV2
  else if cmd = 0x02 then .ok .enc
  else if (formatC cmd).rsv = 0 then .error .reservedOp
  else .error (.reservedField (formatC cmd).rsv)

/-- The operation code of each command, `op[1:0]` of format `C` (R71). -/
def opOf (i : Instr) : BitVec 2 :=
  match i with
  | .genV1 => 0
  | .genV2 => 1
  | .enc => 2

/-- The fields of each command's word: `rsv` is 0 (R71). -/
def fieldsOf (i : Instr) : FormatC := { rsv := 0, op := opOf i }

/-- The command word of an instruction, written from the fields of format `C` (R71): `rsv || op`. -/
def encode (i : Instr) : Byte := (fieldsOf i).rsv ++ (fieldsOf i).op

/-- Lays out an instruction of `nbits` bits as bytes, the least significant byte first. -/
def layOut (nbits w : Nat) : Bytes := (List.range (nbits / 8)).map fun k => BitVec.ofNat 8 (w >>> (8 * k))

/-- Decodes an instruction laid out as bytes: "The command word is always one byte" (R75). -/
def decodeBytes (bs : Bytes) : Option Instr :=
  match bs with
  | [cmd] => (decode cmd).toOption
  | _ => none

/-- The instruction the decoder reads from the `nbits` bits `w`, numbered as opcode_table.json numbers them. -/
def decodeTableWord (nbits w : Nat) : Option Instr := decodeBytes (layOut nbits w)

end Sys2Proof
end

