-- ==== Sys2Proof/Config.lean ====
section
/-! DEFINITION. The shape of a VariantConfig (10_state.md R23) and the parameters the spec leaves open (00_scope.md R6):
the values of variant V2, the host wrapper's open points, one value MD5's rules do not state, and what stands in the
registers that hold no value after reset. Each is an opaque constant, so a theorem about it holds for every value. -/

namespace Sys2Proof

/-- An "ordered sequence of byte-strings (non-empty)" (R23): the sequence has a first key by construction, while a single
key may be the empty string (R26, D16). -/
structure KeySeq where
  first : Bytes
  rest : List Bytes
  deriving DecidableEq, Repr, Inhabited

/-- The keys `keys[0] .. keys[nkeys-1]` in their order (R23). -/
def KeySeq.toList (k : KeySeq) : List Bytes := k.first :: k.rest

/-- `nkeys`, at least 1 (R23). -/
def KeySeq.nkeys (k : KeySeq) : Nat := k.rest.length + 1

/-- A VariantConfig `(type_len, var_len, keys)` (R23). -/
structure VariantConfig where
  typeLen : Nat
  varLen : Nat
  keys : KeySeq
  deriving DecidableEq, Repr, Inhabited

/-- `V2.type_len`: "integer ≥ 0", OPEN (R6, R25, D10). DESIGN CHOICE, assumption log 1. -/
opaque Config.v2TypeLen : Nat

/-- `V2.var_len`: "integer ≥ 0", OPEN (R6, R25, D10). DESIGN CHOICE, assumption log 1. -/
opaque Config.v2VarLen : Nat

/-- `V2.keys`: a non-empty sequence of byte strings, OPEN (R6, R25, R26, D10). DESIGN CHOICE, assumption log 1. -/
opaque Config.v2Keys : KeySeq

/-- The 64-bit length value MD5 appends to a message of `L ≥ 2^61` bytes. R164 defines the length only for `L < 2^61`,
while R176 makes MD5 total and D12 leaves lengths unbounded: the value is free. DESIGN CHOICE, assumption log 6. -/
opaque Config.longBitLength : Nat → BitVec 64

/-- Whether the host wrapper prints a newline after the code: `CLI_LINE_END` is OPEN, "empty or a newline" (R6, R88,
D17). DESIGN CHOICE, assumption log 12. -/
opaque Config.cliEndsLine : Bool

/-- `CLI_LINE_END`: "empty or a newline" (D17). The newline's byte, 0x0A, is PRESUMED, assumption log 22. -/
def Config.cliLineEnd : Bytes := if Config.cliEndsLine then [0x0A] else []

/-- The registers that hold no value after reset (R28, R37): the scalars, `X`, `DIG`, the MD5 registers, and the model's
own `encFromGen`. The name of a length register stands for its buffer too (`ilen` for `IN`, `plen` for `PAT`, ...). -/
inductive RegName where
  | cmd | ilen | status | olen | vsel | plen | clen | kidx | dig | elen | x | ulen | uc | rem | tmp | g | eolen
  | a0 | b0 | c0 | d0 | a | b | c | d | f | m | blk | len | encFromGen
  deriving DecidableEq, Repr

/-- What stands in a register of `w` bits while it holds no value: "not zero, not any fixed value" (R38), so a free
value. DESIGN CHOICE, assumption log 2. -/
opaque Config.unwrittenBits (r : RegName) (w : Nat) : BitVec w

/-- What stands in a register of width "nat" while it holds no value (R28, R38): a free value. DESIGN CHOICE, assumption
log 2. -/
opaque Config.unwrittenNat (r : RegName) : Nat

/-- What stands in a buffer while it holds no value (R28, R38): a free value. DESIGN CHOICE, assumption log 2. -/
opaque Config.unwrittenBytes (r : RegName) : Bytes

/-- The message, if any, the host wrapper prints on an error of the given STATUS (R200, I3: any value). DESIGN
CHOICE, assumption log 12. -/
opaque Config.cliMessage : Byte → Bytes

/-- One less than the wrapper's exit code on an error of the given STATUS, so that the code is any value in 1..255
(R88, R200, I4). DESIGN CHOICE, assumption log 12. -/
opaque Config.cliFailure : Byte → Fin 255

end Sys2Proof
end

