-- ==== Sys2Proof/Machine/Tables.lean ====
section
/-! DEFINITION. The constant state: the alphabet `T`, the digit table `H`, the MD5 tables and the Variant Registry
(10_state.md R20 (a), R21 to R27; 42_hmac_md5.md R167, R170, R171). -/

namespace Sys2Proof.Machine

/-- The MD5 tables (R27): the four initial words, the 64 rotation amounts and the 64 additive constants. -/
structure Md5Tables where
  ivA : Word
  ivB : Word
  ivC : Word
  ivD : Word
  rot : Vector Nat 64
  k : Vector Word 64
  deriving DecidableEq, Repr

/-- The Variant Registry `VR`: `VR[V1]` and `VR[V2]` (R23). -/
structure Registry where
  v1 : VariantConfig
  v2 : VariantConfig
  deriving DecidableEq, Repr

/-- The constant state (R20 (a)). -/
structure Constants where
  /-- `T`, 32 entries of 8 bits (R21). -/
  t : Vector Byte 32
  /-- `H`, 32 entries of 8 bits (R22). -/
  h : Vector Byte 32
  /-- The MD5 tables (R27). -/
  md5 : Md5Tables
  /-- `VR` (R23). -/
  vr : Registry
  deriving DecidableEq, Repr

/-- The 32 codes of `"GN5BH8QJSAC0MFR6P4VET1O7K9U2LD3I"`, index 0 first (R21). -/
def alphabetCodes : Bytes :=
  [0x47, 0x4E, 0x35, 0x42, 0x48, 0x38, 0x51, 0x4A, 0x53, 0x41, 0x43, 0x30, 0x4D, 0x46, 0x52, 0x36,
   0x50, 0x34, 0x56, 0x45, 0x54, 0x31, 0x4F, 0x37, 0x4B, 0x39, 0x55, 0x32, 0x4C, 0x44, 0x33, 0x49]

/-- The alphabet table `T` (R21). -/
def alphabet : Vector Byte 32 := ⟨⟨alphabetCodes⟩, rfl⟩

/-- The 32 codes of `"0123456789abcdefghijklmnopqrstuv"`, index 0 first (R22). -/
def digitCodes : Bytes :=
  [0x30, 0x31, 0x32, 0x33, 0x34, 0x35, 0x36, 0x37, 0x38, 0x39, 0x61, 0x62, 0x63, 0x64, 0x65, 0x66,
   0x67, 0x68, 0x69, 0x6A, 0x6B, 0x6C, 0x6D, 0x6E, 0x6F, 0x70, 0x71, 0x72, 0x73, 0x74, 0x75, 0x76]

/-- The digit table `H`, its dead entries 16 to 31 included (R22, C7). -/
def digits : Vector Byte 32 := ⟨⟨digitCodes⟩, rfl⟩

/-- Sixteen rotation amounts: four, repeated every four steps (R170). -/
def rotRow (a b c d : Nat) : List Nat := [a, b, c, d, a, b, c, d, a, b, c, d, a, b, c, d]

/-- The rotation amounts `S[0..63]` (R170). -/
def rotAmounts : Vector Nat 64 :=
  ⟨⟨rotRow 7 12 17 22 ++ rotRow 5 9 14 20 ++ rotRow 4 11 16 23 ++ rotRow 6 10 15 21⟩, rfl⟩

/-- `K[0..31]` (R171). -/
def sineWordsLow : List Word :=
  [0xd76aa478, 0xe8c7b756, 0x242070db, 0xc1bdceee,
   0xf57c0faf, 0x4787c62a, 0xa8304613, 0xfd469501,
   0x698098d8, 0x8b44f7af, 0xffff5bb1, 0x895cd7be,
   0x6b901122, 0xfd987193, 0xa679438e, 0x49b40821,
   0xf61e2562, 0xc040b340, 0x265e5a51, 0xe9b6c7aa,
   0xd62f105d, 0x02441453, 0xd8a1e681, 0xe7d3fbc8,
   0x21e1cde6, 0xc33707d6, 0xf4d50d87, 0x455a14ed,
   0xa9e3e905, 0xfcefa3f8, 0x676f02d9, 0x8d2a4c8a]

/-- `K[32..63]` (R171). -/
def sineWordsHigh : List Word :=
  [0xfffa3942, 0x8771f681, 0x6d9d6122, 0xfde5380c,
   0xa4beea44, 0x4bdecfa9, 0xf6bb4b60, 0xbebfbc70,
   0x289b7ec6, 0xeaa127fa, 0xd4ef3085, 0x04881d05,
   0xd9d4d039, 0xe6db99e5, 0x1fa27cf8, 0xc4ac5665,
   0xf4292244, 0x432aff97, 0xab9423a7, 0xfc93a039,
   0x655b59c3, 0x8f0ccc92, 0xffeff47d, 0x85845dd1,
   0x6fa87e4f, 0xfe2ce6e0, 0xa3014314, 0x4e0811a1,
   0xf7537e82, 0xbd3af235, 0x2ad7d2bb, 0xeb86d391]

/-- The additive constants `K[0..63]` (R171). -/
def sineWords : Vector Word 64 := ⟨⟨sineWordsLow ++ sineWordsHigh⟩, rfl⟩

/-- The MD5 tables of the hardware (R27, R167, R170, R171). -/
def md5Tables : Md5Tables where
  ivA := 0x67452301
  ivB := 0xEFCDAB89
  ivC := 0x98BADCFE
  ivD := 0x10325476
  rot := rotAmounts
  k := sineWords

/-- The key `"A14+BDM71D"` (R24). -/
def v1Key0 : Bytes := [0x41, 0x31, 0x34, 0x2B, 0x42, 0x44, 0x4D, 0x37, 0x31, 0x44]

/-- The key `"QK35+NI8WV"` (R24). -/
def v1Key1 : Bytes := [0x51, 0x4B, 0x33, 0x35, 0x2B, 0x4E, 0x49, 0x38, 0x57, 0x56]

/-- `VR[V1]` (R24). -/
def variantV1 : VariantConfig := { typeLen := 2, varLen := 4, keys := { first := v1Key0, rest := [v1Key1] } }

/-- `VR[V2]`: the parameters the source does not give (R25). -/
def variantV2 : VariantConfig :=
  { typeLen := Config.v2TypeLen, varLen := Config.v2VarLen, keys := Config.v2Keys }

/-- The constant state from reset on (R37). -/
def constants : Constants where
  t := alphabet
  h := digits
  md5 := md5Tables
  vr := { v1 := variantV1, v2 := variantV2 }

end Sys2Proof.Machine
end

