-- ==== Sys2Proof/Machine/State.lean ====
section
/-! DEFINITION. The state of one instance of the core, all of it plain data: constant, interface, working and sequencer
state (10_state.md R20 to R38), the host's side of the transactions, and the reasons a step can stop. -/

namespace Sys2Proof.Machine

/-- A register together with the spec's mark whether it "holds a value" (R37, R38). Every register has a value, and a read
gives it whatever the mark says: while `held` is false it is a free value that no rule reads (R34), and Safety.lean
reports a read of it. DESIGN CHOICE, assumption log 2. -/
structure Reg (α : Type) where
  held : Bool
  value : α
  deriving DecidableEq, Repr

/-- A register that holds `v`. -/
abbrev Reg.of {α : Type} (v : α) : Reg α := { held := true, value := v }

/-- A register that "holds no value" in the sense of R38; `v` is what stands in it. -/
abbrev Reg.unheld {α : Type} (v : α) : Reg α := { held := false, value := v }

/-- The spaces of 20_memory.md R50: an address is a pair of a space and an index. -/
inductive Space where
  | inp | out | t | h | pat | code | dig | eb | x | u | eo | blk
  | key (v : Variant) (k : Nat)
  deriving DecidableEq, Repr

/-- The phases of the sequencer `PH` (R30). -/
inductive Phase where
  | idle | gLen | gChr | gUp | gBytes | gChain | gHex | gEnc | gCat
  | eHex | eUnits | eInit | eLoop | eDone | done
  deriving DecidableEq, Repr

/-- The MD5 registers (R28, R164): chaining words, working words, message words, block buffer and length counter. -/
structure Md5Regs where
  a0 : Word
  b0 : Word
  c0 : Word
  d0 : Word
  a : Word
  b : Word
  c : Word
  d : Word
  f : Word
  m : Vector Word 16
  /-- The space `BLK`, the current 64-byte block (R50), 512 bits (R28). -/
  blk : Bytes
  /-- The length counter, 64 bits (R28). What it counts no rule says: DESIGN CHOICE, assumption log 21. -/
  len : BitVec 64
  deriving DecidableEq, Repr

/-- The MD5 registers with every bit 0: where an MD5 call starts from, which writes each before it reads it (R34).
DESIGN CHOICE, assumption log 15. -/
def Md5Regs.zero : Md5Regs :=
  { a0 := 0, b0 := 0, c0 := 0, d0 := 0, a := 0, b := 0, c := 0, d := 0, f := 0,
    m := Vector.replicate 16 0, blk := List.replicate 64 0, len := 0 }

/-- What stands in `n` cells of 8 bits that hold no value (R28, R38). -/
def unwrittenCells (r : RegName) (n : Nat) : Bytes :=
  (List.range n).map fun i => (Config.unwrittenBits r (8 * n)).extractLsb' (8 * i) 8

/-- What stands in the MD5 registers while they hold no value (R28, R37, R38). DESIGN CHOICE, assumption log 2. -/
def Md5Regs.unwritten : Md5Regs where
  a0 := Config.unwrittenBits .a0 32
  b0 := Config.unwrittenBits .b0 32
  c0 := Config.unwrittenBits .c0 32
  d0 := Config.unwrittenBits .d0 32
  a := Config.unwrittenBits .a 32
  b := Config.unwrittenBits .b 32
  c := Config.unwrittenBits .c 32
  d := Config.unwrittenBits .d 32
  f := Config.unwrittenBits .f 32
  m := Vector.ofFn fun j => (Config.unwrittenBits .m 512).extractLsb' (32 * j.val) 32
  blk := unwrittenCells .blk 64
  len := Config.unwrittenBits .len 64

/-- Why a step stops. No step from the state after reset reaches one, as long as the host presents well-formed
transactions: the spec's own commands have no such outcome (R62, R194). A read of a register that nothing has written is
no reason to stop (R37; assumption log 2). -/
inductive Fault where
  /-- A read or write outside a space's index range (R62: "a checked access whose failure is a fault that no run
  reaches"). Raised by every buffer access, and by a payload shorter than its `ILEN` (host assumption A3). Safe. -/
  | outOfRange (sp : Space) (i : Nat)
  /-- A lookup in `H` that finds no digit (D22: "return a fault that no run reaches"). Raised by ENC.UNITS. Safe. -/
  | digitNotFound (c : Byte)
  /-- `REM` above 3 when ENC.PAIR reads it: R105 reads "`REM` (0..3)" and shifts by `3 - REM`, and gives no effect for a
  larger one (R28: 0..3 between iterations). Raised by ENC.PAIR. Safe. -/
  | remainderOutOfRange (rem : Nat)
  deriving DecidableEq, Repr

/-- Why a step gives an instruction no meaning. Every command of the table has its meaning, and a reserved command word
is answered with `STATUS = 3` (R30, R78), so no step refuses. -/
inductive Refusal where
  /-- An instruction of the opcode table that is not modelled yet. Raised by an arm of `exec` only; none does. Safe. -/
  | notModelled (mnemonic : String)
  deriving DecidableEq, Repr

/-- The state of one instance (R20, R28), and the host's side of its transactions.
A buffer is the list of the elements in its index range, element 0 first (R50, R52): an index beyond the list is out of
range, and reading it is a fault (R62). It holds a value when its length register does. DESIGN CHOICE, assumption log 3. -/
structure State where
  /-- Constant state `T`, `H`, MD5 tables, `VR` (R20 (a)). -/
  con : Constants
  /-- `CMD`, 8 bits: the command word (R28, R71). -/
  cmd : Reg Byte
  /-- `ILEN`: length of the payload in bytes (R28). -/
  ilen : Reg Nat
  /-- `IN[0..ILEN-1]`: the payload (R28). -/
  inp : Bytes
  /-- `STATUS`, 8 bits: the result code (R31). -/
  status : Reg Byte
  /-- `OLEN`: length of the output in bytes (R28). -/
  olen : Reg Nat
  /-- `OUT[0..OLEN-1]`: the output string (R28). -/
  out : Bytes
  /-- `VSEL`, 1 bit: the variant of a GEN (R28). -/
  vsel : Reg (BitVec 1)
  /-- `PAT[0..PLEN-1]`: the uppercased pattern (R28). -/
  pat : Bytes
  /-- `PLEN` (R28). -/
  plen : Reg Nat
  /-- `CODE[0..CLEN-1]`: the message of the current chain step (R28). -/
  code : Bytes
  /-- `CLEN` (R28). -/
  clen : Reg Nat
  /-- `KIDX`: index of the key of the current chain step (R28). -/
  kidx : Reg Nat
  /-- `DIG[0..15]`, 128 bits: the raw digest of the latest chain step (R28). -/
  dig : Reg Bytes
  /-- `EB[0..ELEN-1]`: the Encoder's input (R28). -/
  eb : Bytes
  /-- `ELEN` (R28). -/
  elen : Reg Nat
  /-- `X[0..2N-1]`: the hex text of the Encoder's input (R28). -/
  x : Reg Bytes
  /-- `U[0..2N-1]`: the unit buffer, 8-bit cells of which 4 bits are meaningful (R28). -/
  u : Bytes
  /-- `ULEN` (R28). -/
  ulen : Reg Nat
  /-- `UC`: the input-unit cursor (R28, R36). -/
  uc : Reg Nat
  /-- `REM`, 4 bits: the accumulated bit count within the current unit (R28, R36). -/
  rem : Reg (BitVec 4)
  /-- `TMP`, 32 bits: the Encoder's temporary (R28). -/
  tmp : Reg Word
  /-- `G`, 5 bits: the index into `T` of the current symbol (R28). -/
  g : Reg (BitVec 5)
  /-- `EO[0..EOLEN-1]`: the Encoder's output string (R28). -/
  eo : Bytes
  /-- `EOLEN` (R28). -/
  eolen : Reg Nat
  /-- The MD5 registers, all written by each MD5 call's initialisation and blocks (R28, R34). -/
  md5 : Reg Md5Regs
  /-- `PH`: the phase sequencer (R30). -/
  ph : Phase
  /-- MODEL'S OWN: whether the Encoder was entered from `G_ENC`, which `E_DONE` must know (R30). DEDUCED, assumption log 4. -/
  encFromGen : Reg Bool
  /-- MODEL'S OWN: the transactions the host has still to issue, the next first (R70, R209). DESIGN CHOICE, assumption log 5. -/
  script : List Transaction
  /-- MODEL'S OWN: the responses the host has taken, the oldest first (R76, R209). DESIGN CHOICE, assumption log 5. -/
  taken : List Response
  deriving DecidableEq, Repr

/-- The machine right after reset (R37, R221): the constants have their values, `PH = IDLE`, and every interface and
working register holds no value: what stands in it is free (R38), each buffer as long as its length register says, `DIG`
128 and the MD5 block 512 bits (R28). DESIGN CHOICE, assumption log 2. -/
def State.reset : State where
  con := constants
  cmd := .unheld (Config.unwrittenBits .cmd 8)
  ilen := .unheld (Config.unwrittenBytes .ilen).length
  inp := Config.unwrittenBytes .ilen
  status := .unheld (Config.unwrittenBits .status 8)
  olen := .unheld (Config.unwrittenBytes .olen).length
  out := Config.unwrittenBytes .olen
  vsel := .unheld (Config.unwrittenBits .vsel 1)
  pat := Config.unwrittenBytes .plen
  plen := .unheld (Config.unwrittenBytes .plen).length
  code := Config.unwrittenBytes .clen
  clen := .unheld (Config.unwrittenBytes .clen).length
  kidx := .unheld (Config.unwrittenNat .kidx)
  dig := .unheld (unwrittenCells .dig 16)
  eb := Config.unwrittenBytes .elen
  elen := .unheld (Config.unwrittenBytes .elen).length
  x := .unheld (Config.unwrittenBytes .x)
  u := Config.unwrittenBytes .ulen
  ulen := .unheld (Config.unwrittenBytes .ulen).length
  uc := .unheld (Config.unwrittenNat .uc)
  rem := .unheld (Config.unwrittenBits .rem 4)
  tmp := .unheld (Config.unwrittenBits .tmp 32)
  g := .unheld (Config.unwrittenBits .g 5)
  eo := Config.unwrittenBytes .eolen
  eolen := .unheld (Config.unwrittenBytes .eolen).length
  md5 := .unheld Md5Regs.unwritten
  ph := .idle
  encFromGen := .unheld ((Config.unwrittenBits .encFromGen 1).getLsbD 0)
  script := []
  taken := []

end Sys2Proof.Machine
end

