-- ==== Sys2Proof/Machine/Flags.lean ====
section
/-! DEFINITION. `STATUS`, the core's only flag-like state, and the error causes (10_state.md R31; 30_encoding.md R77;
60_exceptions.md R190). There is no carry, zero, sign or overflow flag (R31). -/

namespace Sys2Proof.Machine

/-- The complete list of errors (R190). -/
inductive ErrorKind where
  /-- `ILEN ≠ type_len + var_len` of the selected variant (R191). -/
  | invalidLength
  /-- Some payload byte is not an ASCII letter or digit (R192). -/
  | invalidCharacters
  /-- A reserved command word (R193). -/
  | illegalCommand
  deriving DecidableEq, Repr

/-- `STATUS` 0, `OK` (R31, R77). -/
def statusOk : Byte := 0

/-- `code(E)`, the STATUS value of each error (R77, R190). -/
def ErrorKind.code (e : ErrorKind) : Byte :=
  match e with
  | .invalidLength => 1
  | .invalidCharacters => 2
  | .illegalCommand => 3

end Sys2Proof.Machine
end

