-- ==== Sys2Proof/Machine/Ops.lean ====
section
/-! DEFINITION. The shared operations: reading spaces, writing a buffer with its length register, raising an
error and taking a response (00_scope.md R10; 20_memory.md R50, R58, R62; 60_exceptions.md R199, R201). -/

namespace Sys2Proof.Machine

/-- The VariantConfig of a variant identifier (R23, R74). -/
def Registry.config (vr : Registry) (v : Variant) : VariantConfig :=
  match v with
  | .v1 => vr.v1
  | .v2 => vr.v2

/-- The elements of a space, index 0 first (R50). -/
def State.space (s : State) (sp : Space) : Bytes :=
  match sp with
  | .inp => s.inp
  | .out => s.out
  | .t => s.con.t.toList
  | .h => s.con.h.toList
  | .pat => s.pat
  | .code => s.code
  | .dig => s.dig.value
  | .eb => s.eb
  | .x => s.x.value
  | .u => s.u
  | .eo => s.eo
  | .blk => s.md5.value.blk
  | .key v k => ((s.con.vr.config v).keys.toList[k]?).getD []

/-- `MemRead(S:i, 1)`, abbreviated `S[i]` (R10): one whole element, inside the index range (R58, R62). -/
def memRead (s : State) (sp : Space) (i : Nat) : Except Fault Byte :=
  match (s.space sp)[i]? with
  | some v => .ok v
  | none => .error (.outOfRange sp i)

/-- The elements `S[0] .. S[n-1]` in order, each inside the index range (R9, R62). -/
def memReadRange (s : State) (sp : Space) (n : Nat) : Except Fault Bytes :=
  if n ≤ (s.space sp).length then .ok ((s.space sp).take n)
  else .error (.outOfRange sp (s.space sp).length)

/-- `OUT` and `OLEN` together (R50: the index range of `OUT` is `0 .. OLEN-1`). -/
def State.putOut (s : State) (bs : Bytes) : State := { s with out := bs, olen := .of bs.length }

/-- `PAT` and `PLEN` together (R50). -/
def State.putPat (s : State) (bs : Bytes) : State := { s with pat := bs, plen := .of bs.length }

/-- `CODE` and `CLEN` together (R50). -/
def State.putCode (s : State) (bs : Bytes) : State := { s with code := bs, clen := .of bs.length }

/-- `EB` and `ELEN` together (R50). -/
def State.putEb (s : State) (bs : Bytes) : State := { s with eb := bs, elen := .of bs.length }

/-- `X <- bs` (R101). -/
def State.putX (s : State) (bs : Bytes) : State := { s with x := .of bs }

/-- `U` and `ULEN` together (R50). -/
def State.putU (s : State) (bs : Bytes) : State := { s with u := bs, ulen := .of bs.length }

/-- `EO` and `EOLEN` together (R50). -/
def State.putEo (s : State) (bs : Bytes) : State := { s with eo := bs, eolen := .of bs.length }

/-- `KIDX <- k` (R28). -/
def State.setKidx (s : State) (k : Nat) : State := { s with kidx := .of k }

/-- The cursor `(UC, REM)` (R36); `REM` has 4 bits (R28). -/
def State.setCursor (s : State) (uc rem : Nat) : State := { s with uc := .of uc, rem := .of (BitVec.ofNat 4 rem) }

/-- `DIG` and the MD5 registers after a keyed hash (R137, R164). -/
def State.setDigest (s : State) (digest : Bytes) (r : Md5Regs) : State := { s with dig := .of digest, md5 := .of r }

/-- `TMP` and `G`, the Encoder's temporary and the index of its symbol (R28). -/
def State.setGroup (s : State) (tmp : Word) (g : BitVec 5) : State := { s with tmp := .of tmp, g := .of g }

/-- Whether the Encoder was entered from `G_ENC` (R30). -/
def State.enteredFromGen (s : State) (b : Bool) : State := { s with encFromGen := .of b }

/-- `PH <- p` (R10, R30). -/
def State.goTo (s : State) (p : Phase) : State := { s with ph := p }

/-- A buffer's canonical form: it has exactly as many elements as its length register says (R50). -/
def bufferWf (len : Reg Nat) (buf : Bytes) : Bool := len.value == buf.length

/-- The canonical form of the spaces the core writes: each buffer fits its length register, the digest has 16 bytes and
the MD5 block 64 (R28, R50). `IN` and `ILEN` are the host's (assumption A3). That the form holds while a buffer holds no
value is a DESIGN CHOICE, assumption log 2. -/
def Memory.wf (s : State) : Bool :=
  bufferWf s.olen s.out && bufferWf s.plen s.pat && bufferWf s.clen s.code && bufferWf s.elen s.eb &&
    bufferWf s.ulen s.u && bufferWf s.eolen s.eo && s.dig.value.length == 16 && s.md5.value.blk.length == 64

/-- `EO[EOLEN] <- v ; EOLEN <- EOLEN + 1`, the only single-element write of the core (R10, R107). -/
def appendEo (s : State) (v : Byte) : Except Fault State := do
  let old ← memReadRange s .eo s.eolen.value
  pure (s.putEo (old ++ [v]))

/-- `STATUS <- code ; PH <- DONE`: the end of every command (R31). -/
def State.finish (s : State) (code : Byte) : State := { s with status := .of code, ph := .done }

/-- TAKING AN EXCEPTION: `raise E` ends the command at once with `STATUS <- code(E)`, `OLEN <- 0`, `PH <- DONE`, and
`OUT` empty; nothing else is written (R76, R199, D14). -/
def raiseError (e : ErrorKind) (s : State) : State := (s.putOut []).finish e.code

/-- The response `(STATUS, OLEN, OUT[0..OLEN-1])` the host sees (R76). -/
def response (s : State) : Except Fault Response := do
  let out ← memReadRange s .out s.olen.value
  pure { status := s.status.value, olen := s.olen.value, out }

/-- THE RETURN: the host takes the response, and `DONE` goes to `IDLE`, after an error exactly as after a success
(R30, R201). -/
def takeResponse (s : State) : Except Fault State := do
  let r ← response s
  pure { s with ph := .idle, taken := s.taken ++ [r] }

/-- The host issues a transaction: it writes `CMD`, `ILEN` and `IN` (R28, R70). -/
def present (t : Transaction) (s : State) : State :=
  { s with cmd := .of t.cmd, ilen := .of t.ilen, inp := t.payload }

/-- A micro-operation's answer as an outcome of a step. -/
def toOutcome (r : Except Fault State) : Host.Outcome State Fault Refusal :=
  match r with
  | .ok s => .next s
  | .error f => .fault f

end Sys2Proof.Machine
end

