-- ==== Sys2Proof/Machine/Operands.lean ====
section
/-! DEFINITION. The data encodings (30_encoding.md R74, R79 to R83), the 5-bit groups of the unit stream (20_memory.md R54;
40_encoder.md R105, R106) and the variant lookup. -/

namespace Sys2Proof.Machine

/-- ASCII digits, 0x30 to 0x39 (R79). -/
def isDigit (c : Byte) : Bool := 0x30 ≤ c && c ≤ 0x39

/-- ASCII uppercase letters, 0x41 to 0x5A (R79). -/
def isUpper (c : Byte) : Bool := 0x41 ≤ c && c ≤ 0x5A

/-- ASCII lowercase letters, 0x61 to 0x7A (R79). -/
def isLower (c : Byte) : Bool := 0x61 ≤ c && c ≤ 0x7A

/-- The union of the three classes (R79, R134). -/
def isAlphanumeric (c : Byte) : Bool := isDigit c || isUpper c || isLower c

/-- `up(c)`: subtract 0x20 from a lowercase letter (R80). -/
def up (c : Byte) : Byte := if isLower c then c - 0x20 else c

/-- The digit character `H[n]` of a 4-bit value (R81). -/
def hexDigit (h : Vector Byte 32) (n : BitVec 4) : Byte := h[n.toNat]'(by have := n.isLt; omega)

/-- `hex(B)`: two digits per byte, high nibble first (R53, R81). -/
def hexText (h : Vector Byte 32) : Bytes → Bytes
  | [] => []
  | b :: bs => hexDigit h (b.extractLsb' 4 4) :: hexDigit h (b.extractLsb' 0 4) :: hexText h bs

/-- `index_of(c, TAB)`: the least `i` with `TAB[i] = c`, counted from `i` (R10, R82). -/
def indexFrom (c : Byte) : Nat → Bytes → Option Nat
  | _, [] => none
  | i, d :: ds => if d = c then some i else indexFrom c (i + 1) ds

/-- The unit values of a hex text, each in an 8-bit cell (R82, R102); a character not in `H` is D22's fault. -/
def unitValues (h : Vector Byte 32) : Bytes → Except Fault Bytes
  | [] => .ok []
  | c :: cs =>
    match indexFrom c 0 h.toList with
    | some i => do
      let us ← unitValues h cs
      pure (BitVec.ofNat 8 i :: us)
    | none => .error (.digitNotFound c)

/-- `sym(g) = T[g]` (R83). -/
def symbol (t : Vector Byte 32) (g : BitVec 5) : Byte := t[g.toNat]'(by have := g.isLt; omega)

/-- The 8-bit window over two consecutive units, in the 32-bit temporary (R105). -/
def pairWindow (u0 u1 : Byte) : Word := (u0.setWidth 32 <<< 4) ||| u1.setWidth 32

/-- The five bits that start `rem` places below the top of the window (R54, R105). -/
def pairGroup (window : Word) (rem : Nat) : BitVec 5 := (window >>> (3 - rem)).extractLsb' 0 5

/-- The type of the configuration field `FINAL_RAW(u, rem)`, with values in 0..15 (R6, R106). -/
abbrev FinalRaw := BitVec 4 → Nat → BitVec 4

/-- `FINAL_RAW(u, rem) = u`: the spec's decision D3, reading (a), under R106. DEDUCED, assumption log 7. -/
def finalRaw : FinalRaw := fun u _ => u

/-- The group of the final trailing unit: its raw value shifted right by 2, in 0..3 (R106). -/
def finalGroup (raw : Word) : BitVec 5 := (raw >>> 2).extractLsb' 0 5

/-- The variant `VSEL` selects: 0 is V1, 1 is V2 (R28, R74). -/
def variantOf (vsel : BitVec 1) : Variant := if vsel = 0 then .v1 else .v2

/-- The variant of a GEN (R74). -/
def selectedVariant (s : State) : Variant := variantOf s.vsel.value

/-- The VariantConfig the generator rules use (R74). -/
def selectedConfig (s : State) : VariantConfig := s.con.vr.config (selectedVariant s)

/-- `REM` as ENC.PAIR reads it, in 0..3 (R28, R105): for a larger one its shift `3 - REM` is not defined. -/
def readRem (s : State) : Except Fault Nat :=
  if s.rem.value.toNat ≤ 3 then .ok s.rem.value.toNat else .error (.remainderOutOfRange s.rem.value.toNat)

end Sys2Proof.Machine
end

