-- ==== Sys2Proof/Machine/Encoder.lean ====
section
/-! DEFINITION. The Encoder: its micro-operations in the source's order, the procedure `Encode`, and the meaning of `ENC`
(40_encoder.md R100 to R108). The configuration field `FINAL_RAW` is the argument `fr`. -/

namespace Sys2Proof.Machine

/-- The entry of `ENC`: `ELEN <- ILEN`, `EB <- IN` (R100). The Encoder was not entered from `G_ENC` (R30). -/
def encEntry (s : State) : Except Fault State := do
  let bs ← memReadRange s .inp s.ilen.value
  pure ((s.putEb bs).enteredFromGen false)

/-- ENC.HEX: `X <- hex(EB)` (R101). -/
def encHex (s : State) : Except Fault State := do
  let bs ← memReadRange s .eb s.elen.value
  pure (s.putX (hexText s.con.h bs))

/-- ENC.UNITS: `ULEN <- 2*ELEN`, `U[k] <- index_of(X[k], H)` (R102). -/
def encUnits (s : State) : Except Fault State := do
  let cs ← memReadRange s .x (2 * s.elen.value)
  let us ← unitValues s.con.h cs
  pure (s.putU us)

/-- ENC.INIT: `UC <- 0 ; REM <- 0 ; EOLEN <- 0` (R103). -/
def encInit (s : State) : State := (s.putEo []).setCursor 0 0

/-- ENC.PAIR: one 5-bit group from two consecutive units (R105). -/
def encPair (s : State) : Except Fault State := do
  let rem ← readRem s
  let u0 ← memRead s .u s.uc.value
  let u1 ← memRead s .u (s.uc.value + 1)
  pure (s.setGroup (pairWindow u0 u1) (pairGroup (pairWindow u0 u1) rem))

/-- ENC.FINAL: the symbol of the final trailing unit, its raw value shifted right by 2, "whatever `REM` is" (R106). The
four meaningful bits of the cell are the unit (R102). -/
def encFinal (fr : FinalRaw) (s : State) : Except Fault State := do
  let u ← memRead s .u s.uc.value
  let raw : Word := (fr (u.setWidth 4) s.rem.value.toNat).setWidth 32
  pure (s.setGroup raw (finalGroup raw))

/-- ENC.SYM: `EO[EOLEN] <- T[G] ; EOLEN <- EOLEN + 1` (R107). -/
def encSym (s : State) : Except Fault State := appendEo s (symbol s.con.t s.g.value)

/-- `while REM >= 4 : REM <- REM - 4 ; UC <- UC + 1` (R108), for at most `fuel` rounds. -/
def drain : Nat → Nat → Nat → Nat × Nat
  | 0, rem, uc => (rem, uc)
  | fuel + 1, rem, uc => if 4 ≤ rem then drain fuel (rem - 4) (uc + 1) else (rem, uc)

/-- ENC.ADV: `REM <- REM + 5`, then the units consumed (R108). -/
def encAdv (s : State) : State :=
  let rem := s.rem.value.toNat + 5
  let next := drain rem rem s.uc.value
  s.setCursor next.2 next.1

/-- The group of an iteration: ENC.PAIR while a second unit is left, else ENC.FINAL (R104). -/
def encExtract (fr : FinalRaw) (s : State) : Except Fault State :=
  if s.uc.value + 1 < s.ulen.value then encPair s else encFinal fr s

/-- The body of the Encoder's loop: ENC.PAIR or ENC.FINAL, ENC.SYM, ENC.ADV (R104). -/
def encIteration (fr : FinalRaw) (s : State) : Except Fault State := do
  let s ← encExtract fr s
  let s ← encSym s
  pure (encAdv s)

/-- The loop's test `UC < ULEN`, made before each iteration (R104). -/
def encMore (s : State) : Bool := s.uc.value < s.ulen.value

/-- The Encoder's loop (R104), for at most `fuel` iterations: `UC` grows in each, so `ULEN` of them are enough (R232). -/
def encLoop (fr : FinalRaw) : Nat → State → Except Fault State
  | 0, s => .ok s
  | fuel + 1, s =>
    if encMore s then do
      let s ← encIteration fr s
      encLoop fr fuel s
    else .ok s

/-- The loop run to its end (R104). -/
def encRunLoop (fr : FinalRaw) (s : State) : Except Fault State := encLoop fr s.ulen.value s

/-- `Encode`: ENC.HEX, ENC.UNITS, ENC.INIT, the loop (R100). -/
def encodeBuffer (fr : FinalRaw) (s : State) : Except Fault State := do
  let s ← encHex s
  let s ← encUnits s
  encRunLoop fr (encInit s)

/-- The end of `ENC`: `OUT <- EO`, `OLEN <- EOLEN`, `STATUS <- 0`, `PH <- DONE` (R100). -/
def encExit (s : State) : Except Fault State := do
  let bs ← memReadRange s .eo s.eolen.value
  pure ((s.putOut bs).finish statusOk)

/-- `ENC` under a given `FINAL_RAW` (R100). -/
def encCommand (fr : FinalRaw) (s : State) : Except Fault State := do
  let s ← encEntry s
  let s ← encodeBuffer fr s
  encExit s

/-- `ENC`: encode a byte buffer (R100). -/
def execEnc (s : State) : Host.Outcome State Fault Refusal := toOutcome (encCommand finalRaw s)

end Sys2Proof.Machine
end

