-- ==== Sys2Proof/Machine/Hash.lean ====
section
/-! DEFINITION. MD5 and HMAC-MD5 over the MD5 tables (42_hmac_md5.md R161 to R176; 20_memory.md R55). -/

namespace Sys2Proof.Machine

/-- `rotl32(x, s)`, `0 < s < 32` (R8). -/
def rotl32 (x : Word) (s : Nat) : Word := (x <<< s) ||| (x >>> (32 - s))

/-- The round functions `F(B, C, D)` of the steps `i` (R168). -/
def roundF (i : Nat) (b c d : Word) : Word :=
  if i < 16 then (b &&& c) ||| (~~~b &&& d)
  else if i < 32 then (d &&& b) ||| (~~~d &&& c)
  else if i < 48 then b ^^^ c ^^^ d
  else c ^^^ (b ||| ~~~d)

/-- The message word index `g(i)` (R169). -/
def wordIndex (i : Nat) : Fin 16 :=
  if h : i < 16 then ⟨i, h⟩
  else if i < 32 then ⟨(5 * i + 1) % 16, Nat.mod_lt _ (by decide)⟩
  else if i < 48 then ⟨(3 * i + 5) % 16, Nat.mod_lt _ (by decide)⟩
  else ⟨(7 * i) % 16, Nat.mod_lt _ (by decide)⟩

/-- One step `i` of the compression, with the old values on every right side (R172). -/
def md5Step (tab : Md5Tables) (r : Md5Regs) (i : Fin 64) : Md5Regs :=
  let f := roundF i r.b r.c r.d + r.a + tab.k[i] + r.m[wordIndex i]
  { r with f := f, a := r.d, d := r.c, c := r.b, b := r.b + rotl32 f tab.rot[i] }

/-- The 64 steps in order (R173). -/
def md5Rounds (tab : Md5Tables) (r : Md5Regs) : Md5Regs := (List.finRange 64).foldl (md5Step tab) r

/-- A 32-bit word from four bytes, the first byte least significant (R166). -/
def leWord (b0 b1 b2 b3 : Byte) : Word :=
  b0.setWidth 32 ||| (b1.setWidth 32 <<< 8) ||| (b2.setWidth 32 <<< 16) ||| (b3.setWidth 32 <<< 24)

/-- Byte `i` of a block. Every block is 64 bytes long (R165), so the default is never taken. -/
def blockByte (blk : Bytes) (i : Nat) : Byte := blk.getD i 0

/-- `M[j]` of a block (R166). -/
def blockWord (blk : Bytes) (j : Nat) : Word :=
  leWord (blockByte blk (4 * j)) (blockByte blk (4 * j + 1)) (blockByte blk (4 * j + 2)) (blockByte blk (4 * j + 3))

/-- `Words(BLK)`: `M[0..15]` (R166). -/
def blockWords (blk : Bytes) : Vector Word 16 := ⟨⟨(List.range 16).map (blockWord blk)⟩, rfl⟩

/-- The block is taken into `BLK` and `M`, and the working words from the chaining words (R164, R173). -/
def md5Load (blk : Bytes) (r : Md5Regs) : Md5Regs :=
  { r with blk := blk, m := blockWords blk, a := r.a0, b := r.b0, c := r.c0, d := r.d0 }

/-- The chaining words after the steps, each sum modulo 2^32 (R173). -/
def md5Add (r : Md5Regs) : Md5Regs :=
  { r with a0 := r.a0 + r.a, b0 := r.b0 + r.b, c0 := r.c0 + r.c, d0 := r.d0 + r.d }

/-- `Compress` of one block (R173). -/
def md5Block (tab : Md5Tables) (r : Md5Regs) (blk : Bytes) : Md5Regs := md5Add (md5Rounds tab (md5Load blk r))

/-- The blocks of a padded message, in order (R164): `n` of them, 64 bytes each. -/
def md5Blocks (tab : Md5Tables) : Nat → Md5Regs → Bytes → Md5Regs
  | 0, r, _ => r
  | n + 1, r, p => md5Blocks tab n (md5Block tab r (p.take 64)) (p.drop 64)

/-- The bit length `8*L` as a 64-bit value (R165). R164 defines it for `L < 2^61`; above, the value is free
(DESIGN CHOICE, assumption log 6). -/
def bitLength (n : Nat) : BitVec 64 := if n < 2 ^ 61 then BitVec.ofNat 64 (8 * n) else Config.longBitLength n

/-- The 8 bytes of a 64-bit value, least significant byte first (R165). -/
def le64 (v : BitVec 64) : Bytes := (List.range 8).map fun i => v.extractLsb' (8 * i) 8

/-- How many zero bytes make the length, the byte 0x80 included, congruent to 56 modulo 64: the fewest (R165). -/
def padZeros (n : Nat) : Nat := (119 - n % 64) % 64

/-- `Pad(msg)` (R165). -/
def md5Pad (msg : Bytes) : Bytes :=
  msg ++ 0x80 :: (List.replicate (padZeros msg.length) 0 ++ le64 (bitLength msg.length))

/-- The registers when an MD5 call begins: the initial words and the length counter (R164, R165, R167). Everything else
is written by the first block before it is read (R34). No rule says what the length counter counts: that it holds the
bit length of the whole message from the start of the call to its end is a DESIGN CHOICE, assumption log 21. -/
def md5Start (tab : Md5Tables) (msg : Bytes) : Md5Regs :=
  { Md5Regs.zero with
    a0 := tab.ivA, b0 := tab.ivB, c0 := tab.ivC, d0 := tab.ivD, len := bitLength msg.length }

/-- The MD5 registers when an MD5 call ends (R164). -/
def md5Run (tab : Md5Tables) (msg : Bytes) : Md5Regs :=
  md5Blocks tab ((md5Pad msg).length / 64) (md5Start tab msg) (md5Pad msg)

/-- The 4 bytes of a word, least significant byte first (R174). -/
def leBytes (w : Word) : Bytes :=
  [w.extractLsb' 0 8, w.extractLsb' 8 8, w.extractLsb' 16 8, w.extractLsb' 24 8]

/-- `Serialize(a0, b0, c0, d0)`: 16 bytes (R174). -/
def serialize (r : Md5Regs) : Bytes := leBytes r.a0 ++ leBytes r.b0 ++ leBytes r.c0 ++ leBytes r.d0

/-- `MD5(msg)` (R164). -/
def md5 (tab : Md5Tables) (msg : Bytes) : Bytes := serialize (md5Run tab msg)

/-- `BlockKey(key)`, 64 bytes (R162). -/
def blockKey (tab : Md5Tables) (key : Bytes) : Bytes :=
  if 64 < key.length then md5 tab key ++ List.replicate 48 0
  else key ++ List.replicate (64 - key.length) 0

/-- The inner digest `MD5(ipad || msg)` (R161). -/
def hmacInner (tab : Md5Tables) (key msg : Bytes) : Bytes := md5 tab ((blockKey tab key).map (· ^^^ 0x36) ++ msg)

/-- The message of the outer MD5, `opad || inner`: 80 bytes (R161). -/
def hmacOuter (tab : Md5Tables) (key msg : Bytes) : Bytes :=
  (blockKey tab key).map (· ^^^ 0x5C) ++ hmacInner tab key msg

/-- The MD5 registers when an HMAC computation ends: those of its last MD5 call (R161, R164). -/
def hmacRun (tab : Md5Tables) (key msg : Bytes) : Md5Regs := md5Run tab (hmacOuter tab key msg)

/-- `HMAC_MD5(key, msg)`, 16 bytes (R161). -/
def hmacMd5 (tab : Md5Tables) (key msg : Bytes) : Bytes := md5 tab (hmacOuter tab key msg)

end Sys2Proof.Machine
end

