-- ==== Sys2Proof/Machine/Generator.lean ====
section
/-! DEFINITION. The Generator: its micro-operations in the source's order, the procedure `Gen`, and the meanings of `GEN.V1`
and `GEN.V2` (41_generator.md R130 to R141). -/

namespace Sys2Proof.Machine

/-- GEN.LEN: whether `ILEN = type_len + var_len` (R133). -/
def genLen (s : State) : Bool := s.ilen.value == (selectedConfig s).typeLen + (selectedConfig s).varLen

/-- GEN.CHR: whether every `IN[i]` is alphanumeric (R134). -/
def genChr (s : State) : Except Fault Bool := do
  let bs ← memReadRange s .inp s.ilen.value
  pure (bs.all isAlphanumeric)

/-- GEN.UP: `PLEN <- ILEN`, `PAT[i] <- up(IN[i])` (R135). -/
def genUp (s : State) : Except Fault State := do
  let bs ← memReadRange s .inp s.ilen.value
  pure (s.putPat (bs.map up))

/-- GEN.BYTES: `CODE <- PAT`, `CLEN <- PLEN` (R136). -/
def genBytes (s : State) : Except Fault State := do
  let bs ← memReadRange s .pat s.plen.value
  pure (s.putCode bs)

/-- The entry of GEN.CHAIN: `KIDX <- 0` (R34, R137). Which phase performs it: DESIGN CHOICE, assumption log 23. -/
def genChainEntry (s : State) : State := s.setKidx 0

/-- `keys[KIDX]` of the selected variant (R50: the space `KEY[v][k]`). -/
def chainKey (s : State) : Except Fault Bytes :=
  match (selectedConfig s).keys.toList[s.kidx.value]? with
  | some key => .ok key
  | none => .error (.outOfRange (.key (selectedVariant s) s.kidx.value) 0)

/-- One chain step: `DIG <- HMAC_MD5(keys[KIDX], CODE)` (R137); the MD5 registers are left as its last MD5 call left
them. -/
def genChainStep (s : State) : Except Fault State := do
  let key ← chainKey s
  let msg ← memReadRange s .code s.clen.value
  pure (s.setDigest (hmacMd5 s.con.md5 key msg) (hmacRun s.con.md5 key msg))

/-- Whether the chain goes on: `KIDX < nkeys - 1` (R30, R137). -/
def genChainMore (s : State) : Bool := s.kidx.value < (selectedConfig s).keys.nkeys - 1

/-- GEN.HEX: `CODE <- hex(DIG[0..15])`, `CLEN <- 32` (R138), and `KIDX <- KIDX + 1` (R30). -/
def genHex (s : State) : Except Fault State := do
  let bs ← memReadRange s .dig 16
  pure ((s.putCode (hexText s.con.h bs)).setKidx (s.kidx.value + 1))

/-- The chain (R137): a step, and while a key is left GEN.HEX and the next; at most `fuel` steps after the first. -/
def genChainLoop : Nat → State → Except Fault State
  | 0, s => genChainStep s
  | fuel + 1, s => do
    let s ← genChainStep s
    if genChainMore s then
      let s ← genHex s
      genChainLoop fuel s
    else pure s

/-- GEN.CHAIN: each key of the sequence in its order, exactly once (R137). -/
def genChain (s : State) : Except Fault State :=
  genChainLoop ((selectedConfig s).keys.nkeys - 1) (genChainEntry s)

/-- The first half of GEN.ENC: `ELEN <- 16`, `EB <- DIG` (R140). The Encoder is entered from `G_ENC` (R30). -/
def genEncEntry (s : State) : Except Fault State := do
  let bs ← memReadRange s .dig 16
  pure ((s.putEb bs).enteredFromGen true)

/-- GEN.ENC: the call of the Encoder on the raw final digest (R139, R140). -/
def genEnc (fr : FinalRaw) (s : State) : Except Fault State := do
  let s ← genEncEntry s
  encodeBuffer fr s

/-- GEN.CAT: `OUT <- PAT || EO`, `OLEN`, `STATUS <- 0`, `PH <- DONE` (R141). -/
def genCat (s : State) : Except Fault State := do
  let front ← memReadRange s .pat s.plen.value
  let suffix ← memReadRange s .eo s.eolen.value
  pure ((s.putOut (front ++ suffix)).finish statusOk)

/-- `Gen` after its checks (R132). -/
def genBody (fr : FinalRaw) (s : State) : Except Fault State := do
  let s ← genUp s
  let s ← genBytes s
  let s ← genChain s
  let s ← genEnc fr s
  genCat s

/-- `Gen(cfg)` for the configuration `VSEL` selects: the checks "in order, first failure wins", then the processing
(R132, R196, R197). -/
def gen (fr : FinalRaw) (s : State) : Except Fault State :=
  if genLen s then do
    if ← genChr s then genBody fr s
    else pure (raiseError .invalidCharacters s)
  else .ok (raiseError .invalidLength s)

/-- `VSEL <- v` (R130, R131). -/
def State.select (s : State) (v : BitVec 1) : State := { s with vsel := .of v }

/-- `GEN.V1`: `VSEL <- 0 ; Gen(VR[V1])` (R130). -/
def execGenV1 (s : State) : Host.Outcome State Fault Refusal := toOutcome (gen finalRaw (s.select 0))

/-- `GEN.V2`: `VSEL <- 1 ; Gen(VR[V2])` (R131). -/
def execGenV2 (s : State) : Host.Outcome State Fault Refusal := toOutcome (gen finalRaw (s.select 1))

end Sys2Proof.Machine
end

