-- ==== Sys2Proof/Machine/Dispatch.lean ====
section
/-! DEFINITION. `exec`: one arm per command, each a direct call of its meaning. -/

namespace Sys2Proof.Machine

def exec (i : Instr) (s : State) : Host.Outcome State Fault Refusal :=
  match i with
  | .genV1 => Sys2Proof.Machine.execGenV1 s
  | .genV2 => Sys2Proof.Machine.execGenV2 s
  | .enc => Sys2Proof.Machine.execEnc s

end Sys2Proof.Machine
end

