-- ==== Sys2Proof/Machine/Sequencer.lean ====
section
/-! DEFINITION. How a command begins and ends, and the phase sequencer `PH`, one micro-operation at a time (10_state.md R30;
70_reset_and_hazards.md R222, R227, R228). -/

namespace Sys2Proof.Machine

/-- What decode does for a command, and its first phase (R30): a GEN sets `VSEL` and goes to `G_LEN`; an `ENC` loads its
input buffer and goes to `E_HEX`. That the load belongs to this transition, for which R30 and R100 name no phase, is a
DESIGN CHOICE, assumption log 23. -/
def enter (i : Instr) (s : State) : Except Fault State :=
  match i with
  | .genV1 => .ok ((s.select 0).goTo .gLen)
  | .genV2 => .ok ((s.select 1).goTo .gLen)
  | .enc => do
    let s ← encEntry s
    pure (s.goTo .eHex)

/-- The phase after a chain step: `G_HEX` while a key is left, else `G_ENC` (R30). -/
def afterChain (s : State) : State := if genChainMore s then s.goTo .gHex else s.goTo .gEnc

/-- `E_LOOP`: one iteration while `UC < ULEN`, else to `E_DONE` (R30, R104). -/
def loopPhase (s : State) : Except Fault State :=
  if encMore s then do
    let s ← encIteration finalRaw s
    pure (s.goTo .eLoop)
  else .ok (s.goTo .eDone)

/-- `E_DONE`: to `G_CAT` if the Encoder was entered from `G_ENC`, else the end of `ENC` (R30). That the end of `ENC` copies
`EO` to `OUT` in this phase, for which R100 names none, is a DESIGN CHOICE, assumption log 23. -/
def encDonePhase (s : State) : Except Fault State := if s.encFromGen.value then .ok (s.goTo .gCat) else encExit s

/-- The host issues its next transaction, if it has one (R70, R209). -/
def issueNext (s : State) : Option State :=
  match s.script with
  | [] => none
  | t :: rest => some (present t { s with script := rest })

/-- The acceptance of the command in `CMD` (R30): to its first phase, or on a reserved word to `DONE` with `STATUS = 3`
(R78, R193). -/
def acceptCommand (s : State) : Except Fault State :=
  match decode s.cmd.value with
  | .ok i => enter i s
  | .error _ => .ok (raiseError .illegalCommand s)

/-- `IDLE`: the core waits while the host issues nothing (R222, R233), else it accepts the command issued (R30). -/
def idlePhase (s : State) : Except Fault State :=
  match issueNext s with
  | none => .ok s
  | some s => acceptCommand s

/-- The micro-operation of the phase `PH` holds, and the phase that follows it (R30). `KIDX <- 0` stands in the transition
from `G_BYTES` to `G_CHAIN`, beside GEN.BYTES, which writes `CODE` and `CLEN` only (R136): R34 gives it to "GEN.CHAIN's
entry" and no rule names its phase. DESIGN CHOICE, assumption log 23. -/
def microOp (s : State) : Except Fault State :=
  match s.ph with
  | .idle => idlePhase s
  | .gLen => if genLen s then .ok (s.goTo .gChr) else .ok (raiseError .invalidLength s)
  | .gChr => do
    if ← genChr s then pure (s.goTo .gUp) else pure (raiseError .invalidCharacters s)
  | .gUp => do
    let s ← genUp s
    pure (s.goTo .gBytes)
  | .gBytes => do
    let s ← genBytes s
    pure ((genChainEntry s).goTo .gChain)
  | .gChain => do
    let s ← genChainStep s
    pure (afterChain s)
  | .gHex => do
    let s ← genHex s
    pure (s.goTo .gChain)
  | .gEnc => do
    let s ← genEncEntry s
    pure (s.goTo .eHex)
  | .gCat => genCat s
  | .eHex => do
    let s ← encHex s
    pure (s.goTo .eUnits)
  | .eUnits => do
    let s ← encUnits s
    pure (s.goTo .eInit)
  | .eInit => .ok ((encInit s).goTo .eLoop)
  | .eLoop => loopPhase s
  | .eDone => encDonePhase s
  | .done => takeResponse s

/-- `n` micro-operations, stopping at the first fault. -/
def microOps : Nat → State → Except Fault State
  | 0, s => .ok s
  | n + 1, s => do
    let s ← microOp s
    microOps n s

/-- The command in `CMD` runs from its acceptance to its response (R13): a reserved word is answered with
`IllegalCommand` (R30, R78, R193). -/
def runCommand (s : State) : Host.Outcome State Fault Refusal :=
  match decode s.cmd.value with
  | .ok i => exec i s
  | .error _ => .next (raiseError .illegalCommand s)

/-- A step in `IDLE`: the core waits while the host issues nothing (R222, R233), else it runs the command issued. -/
def idleStep (s : State) : Host.Outcome State Fault Refusal :=
  match issueNext s with
  | none => .next s
  | some s => runCommand s

end Sys2Proof.Machine
end

