-- ==== Sys2Proof/Machine/Step.lean ====
section
/-! DEFINITION. One step of the machine, and where it takes its next command from. -/

namespace Sys2Proof.Machine

/-- One step. In `IDLE` a whole command runs, from its acceptance to `DONE` (R13, R59); in `DONE` the host takes the
response (R30, R201). A state between the two, which only the sequencer's micro-operations reach, goes on by one
micro-operation (R30). -/
def step (s : State) : Host.Outcome State Fault Refusal :=
  match s.ph with
  | .idle => idleStep s
  | _ => toOutcome (microOp s)

/-- The machine in `IDLE`, with the command word `w` as the host's next transaction, its payload empty. The very next
step issues and runs it. -/
def State.withFetchWord (s : State) (nbits w : Nat) : State :=
  { s with
    ph := .idle
    script := { cmd := (layOut nbits w).headD 0, ilen := 0, payload := [] } :: s.script }

end Sys2Proof.Machine
end

