-- ==== Sys2Proof/Machine/Cli.lean ====
section
/-! DEFINITION. The host's command-line surface, whose "contract must be preserved": how a command line maps onto a command,
and what the wrapper prints (30_encoding.md R86 to R88; 60_exceptions.md R200; 70_reset_and_hazards.md R233). It is outside
the core: one run of it is one command. -/

namespace Sys2Proof.Machine

/-- `<program> [--variant {v1|v2}] <pattern>` (R86). -/
structure CommandLine where
  variant : Option Variant
  pattern : Bytes
  deriving DecidableEq, Repr

/-- What a run of the wrapper gives: the code line on standard output, if one is printed, any other message, and the exit
code (R88, R200). -/
structure CliResult where
  codeLine : Option Bytes
  message : Bytes
  exitCode : Nat
  deriving DecidableEq, Repr

/-- The command of a variant identifier (R86). -/
def generatorOf (v : Variant) : Instr :=
  match v with
  | .v1 => .genV1
  | .v2 => .genV2

/-- The pseudo-instruction `GEN`: with no variant named it is `GEN.V2` (R87). -/
def CommandLine.instr (line : CommandLine) : Instr := generatorOf (line.variant.getD .v2)

/-- The transaction a command line stands for (R70, R86). -/
def CommandLine.transaction (line : CommandLine) : Transaction :=
  { cmd := encode line.instr, ilen := line.pattern.length, payload := line.pattern }

/-- The character `/` (R88). -/
def slash : Byte := 0x2F

/-- What the wrapper does with a response: on success `/`, the code and `CLI_LINE_END`, exit code 0 (R88); on an error no
code line, any message, and any non-zero exit code (R200, I3, I4). -/
def cliResult (r : Response) : CliResult :=
  if r.status = statusOk then
    { codeLine := some (slash :: r.out ++ Config.cliLineEnd), message := [], exitCode := 0 }
  else
    { codeLine := none, message := Config.cliMessage r.status, exitCode := (Config.cliFailure r.status).val + 1 }

/-- One run of the wrapper on a core right after reset: the command runs, the response is read (R233). `none` if the core
stops, which no command line makes it do. -/
def runCommandLine (line : CommandLine) : Option CliResult :=
  match step { State.reset with script := [line.transaction] } with
  | .next s =>
    match response s with
    | .ok r => some (cliResult r)
    | .error _ => none
  | .fault _ => none
  | .refused _ => none

end Sys2Proof.Machine
end

