-- ==== Sys2Proof/Machine/ClosedForm.lean ====
section
/-! DEFINITION. What the rules say a command computes, without the micro-operations: the closed form of the Encoder
(40_encoder.md R109, R111), the chain as a fold over the keys (41_generator.md R137; 90_conflicts.md C9), the state each
command ends in, and the response of a transaction as a function of it and the constants (00_scope.md R7;
10_state.md R34). The statements compare the machine with these. -/

namespace Sys2Proof.Machine

/-- Bit `p` of the bit string `S` of the input: byte 0 first, each byte most significant bit first (R54, R111). -/
def streamBit (bs : Bytes) (p : Nat) : Bool := (bs.getD (p / 8) 0).getMsbD (p % 8)

/-- `S[5j .. 5j+4]`, the five bits read as a number with `S[5j]` most significant (R111). -/
def streamGroup (bs : Bytes) (j : Nat) : BitVec 5 :=
  BitVec.ofBool (streamBit bs (5 * j)) ++ BitVec.ofBool (streamBit bs (5 * j + 1)) ++
    BitVec.ofBool (streamBit bs (5 * j + 2)) ++ BitVec.ofBool (streamBit bs (5 * j + 3)) ++
    BitVec.ofBool (streamBit bs (5 * j + 4))

/-- The last unit of the input: the low nibble of its last byte (R53, R106). -/
def lastUnit (bs : Bytes) : BitVec 4 := (bs.getD (bs.length - 1) 0).extractLsb' 0 4

/-- The group of symbol `j`: five stream bits, or the truncated last unit where five bits are no longer left (R106,
R111). -/
def encGroup (fr : FinalRaw) (bs : Bytes) (j : Nat) : BitVec 5 :=
  if 5 * j + 5 ≤ 8 * bs.length then streamGroup bs j
  else finalGroup ((fr (lastUnit bs) (5 * j % 4)).setWidth 32)

/-- `ceil(8N/5)`, the number of symbols for `N` bytes (R109). -/
def symbolCount (n : Nat) : Nat := (8 * n + 4) / 5

/-- The encoded string (R109, R111). -/
def encText (fr : FinalRaw) (t : Vector Byte 32) (bs : Bytes) : Bytes :=
  (List.range (symbolCount bs.length)).map fun j => symbol t (encGroup fr bs j)

/-- The unit cells of the input: high nibble, low nibble, byte by byte (R82, R102). -/
def unitCells : Bytes → Bytes
  | [] => []
  | b :: bs => (b.extractLsb' 4 4).setWidth 8 :: (b.extractLsb' 0 4).setWidth 8 :: unitCells bs

/-- The key and the message of the last chain step: each step before it turns its digest into hex text (R137, R138). -/
def lastStep (con : Constants) : Bytes → List Bytes → Bytes → Bytes × Bytes
  | key, [], msg => (key, msg)
  | key, next :: rest, msg => lastStep con next rest (hexText con.h (hmacMd5 con.md5 key msg))

/-- The key and the message of the last step of a variant's chain over a message (R137). -/
def chainEnd (con : Constants) (keys : KeySeq) (msg : Bytes) : Bytes × Bytes := lastStep con keys.first keys.rest msg

/-- `final_digest` (R137). -/
def finalDigest (con : Constants) (keys : KeySeq) (msg : Bytes) : Bytes :=
  hmacMd5 con.md5 (chainEnd con keys msg).1 (chainEnd con keys msg).2

/-- The generated code: the uppercased pattern and the encoded final digest (R141). -/
def genCode (fr : FinalRaw) (con : Constants) (cfg : VariantConfig) (pattern : Bytes) : Bytes :=
  pattern.map up ++ encText fr con.t (finalDigest con cfg.keys (pattern.map up))

/-- The state after `Encode` has run on the input `bs` (R101 to R108). `TMP` and `G` are those of the last symbol. -/
def encoded (fr : FinalRaw) (s : State) (bs : Bytes) (tmp : Reg Word) (g : Reg (BitVec 5)) : State :=
  { s with
    eb := bs, elen := .of bs.length
    x := .of (hexText s.con.h bs)
    u := unitCells bs, ulen := .of (2 * bs.length)
    uc := .of (5 * symbolCount bs.length / 4), rem := .of (BitVec.ofNat 4 (5 * symbolCount bs.length % 4))
    tmp := tmp, g := g
    eo := encText fr s.con.t bs, eolen := .of (symbolCount bs.length) }

/-- The state an `ENC` of the payload `bs` ends in (R100). -/
def encDone (fr : FinalRaw) (s : State) (bs : Bytes) (tmp : Reg Word) (g : Reg (BitVec 5)) : State :=
  { encoded fr s bs tmp g with
    encFromGen := .of false
    out := encText fr s.con.t bs, olen := .of (symbolCount bs.length)
    status := .of statusOk, ph := .done }

/-- The state a successful `GEN` of the pattern `bs` ends in, `VSEL` being written already (R132, R135 to R141). -/
def genDone (fr : FinalRaw) (s : State) (cfg : VariantConfig) (bs : Bytes) (tmp : Reg Word) (g : Reg (BitVec 5)) : State :=
  { encoded fr s (finalDigest s.con cfg.keys (bs.map up)) tmp g with
    pat := bs.map up, plen := .of bs.length
    code := (chainEnd s.con cfg.keys (bs.map up)).2
    clen := .of (chainEnd s.con cfg.keys (bs.map up)).2.length
    kidx := .of (cfg.keys.nkeys - 1)
    dig := .of (finalDigest s.con cfg.keys (bs.map up))
    md5 := .of (hmacRun s.con.md5 (chainEnd s.con cfg.keys (bs.map up)).1 (chainEnd s.con cfg.keys (bs.map up)).2)
    encFromGen := .of true
    out := genCode fr s.con cfg bs, olen := .of (genCode fr s.con cfg bs).length
    status := .of statusOk, ph := .done }

/-- A byte outside the three classes of R79, by the byte values of its table. -/
abbrev outsideClasses (c : Byte) : Prop :=
  ¬ (0x30 ≤ c.toNat ∧ c.toNat ≤ 0x39 ∨ 0x41 ≤ c.toNat ∧ c.toNat ≤ 0x5A ∨ 0x61 ≤ c.toNat ∧ c.toNat ≤ 0x7A)

/-- The length a variant requires of a pattern (R133). -/
def patternLength (cfg : VariantConfig) : Nat := cfg.typeLen + cfg.varLen

/-- The response of an error: its code and no output (R76). -/
def errorResponse (e : ErrorKind) : Response := { status := e.code, olen := 0, out := [] }

/-- The response that carries an output (R76). -/
def okResponse (out : Bytes) : Response := { status := statusOk, olen := out.length, out }

/-- The response of a GEN, a function of the configuration and the pattern (R132, R144, R196). -/
def genResponse (fr : FinalRaw) (con : Constants) (cfg : VariantConfig) (pattern : Bytes) : Response :=
  if pattern.length ≠ patternLength cfg then errorResponse .invalidLength
  else if pattern.all isAlphanumeric then okResponse (genCode fr con cfg pattern)
  else errorResponse .invalidCharacters

/-- The response of a command, a function of its payload and the constant state alone (R7, R34). -/
def instrResponse (fr : FinalRaw) (con : Constants) (i : Instr) (payload : Bytes) : Response :=
  match i with
  | .genV1 => genResponse fr con con.vr.v1 payload
  | .genV2 => genResponse fr con con.vr.v2 payload
  | .enc => okResponse (encText fr con.t payload)

/-- The response of a transaction, a reserved command word included (R34, R78). -/
def commandResponse (fr : FinalRaw) (con : Constants) (t : Transaction) : Response :=
  match decode t.cmd with
  | .ok i => instrResponse fr con i t.payload
  | .error _ => errorResponse .illegalCommand

end Sys2Proof.Machine
end

