-- ==== Sys2Proof/Machine/Instances.lean ====
section
/-! DEFINITION. Several instances of the core: independent copies of the model of one (60_exceptions.md R208). -/

namespace Sys2Proof.Machine

/-- Instance `k` makes a step and no other instance changes; `none` if there is no instance `k`, or if it stops. -/
def stepInstance (k : Nat) (cores : List State) : Option (List State) :=
  match cores[k]? with
  | none => none
  | some s =>
    match step s with
    | .next t => some (cores.set k t)
    | .fault _ => none
    | .refused _ => none

/-- The instances make steps in the order of a schedule, each entry naming the instance that steps next; `none` if one of
these steps does not happen. The order is arbitrary: R64 and R208 give none. DESIGN CHOICE, assumption log 16. -/
def runInstances : List Nat → List State → Option (List State)
  | [], cores => some cores
  | k :: rest, cores => (stepInstance k cores).bind (runInstances rest)

end Sys2Proof.Machine
end

