-- ==== Sys2Proof/Safety.lean ====
section
/-! DEFINITION. What counts as a good state and a safe run, in the terms the statements use. -/

namespace Sys2Proof.Machine

/-- The interface holds the payload `bs`: the first `ILEN` bytes of `IN` (R28, R70). -/
def State.holdsPayload (s : State) (bs : Bytes) : Prop :=
  s.ilen.value ≤ s.inp.length ∧ bs = s.inp.take s.ilen.value

/-- The response the host sees in a state (R76). -/
def State.shows (s : State) (r : Response) : Prop := response s = .ok r

/-! ## Registers that hold no value -/

/-- Whether a register holds a value (R37, R38); a buffer does when its length register does. -/
def State.holds (s : State) (r : RegName) : Bool :=
  match r with
  | .cmd => s.cmd.held
  | .ilen => s.ilen.held
  | .status => s.status.held
  | .olen => s.olen.held
  | .vsel => s.vsel.held
  | .plen => s.plen.held
  | .clen => s.clen.held
  | .kidx => s.kidx.held
  | .dig => s.dig.held
  | .elen => s.elen.held
  | .x => s.x.held
  | .ulen => s.ulen.held
  | .uc => s.uc.held
  | .rem => s.rem.held
  | .tmp => s.tmp.held
  | .g => s.g.held
  | .eolen => s.eolen.held
  | .a0 | .b0 | .c0 | .d0 | .a | .b | .c | .d | .f | .m | .blk | .len => s.md5.held
  | .encFromGen => s.encFromGen.held

/-- The registers a phase's micro-operation reads, on one of its branches at least, before it writes them (R30, R34;
40_encoder.md, 41_generator.md). In `IDLE` the host's writes come first. `G_CHAIN` reads `KIDX`, `E_HEX` reads `ELEN` and
`E_DONE` reads `EOLEN` by the phases of assumption log 23 (DESIGN CHOICE). -/
def Phase.reads (p : Phase) : List RegName :=
  match p with
  | .idle | .eInit => []
  | .gLen => [.ilen, .vsel]
  | .gChr | .gUp => [.ilen]
  | .gBytes => [.plen]
  | .gChain => [.vsel, .kidx, .clen]
  | .gHex => [.dig, .kidx]
  | .gEnc => [.dig]
  | .gCat => [.plen, .eolen]
  | .eHex => [.elen]
  | .eUnits => [.elen, .x]
  | .eLoop => [.uc, .ulen, .rem, .eolen]
  | .eDone => [.encFromGen, .eolen]
  | .done => [.status, .olen]

/-- R38's "modelling error to be reported as a fault", beside the machine and without stopping it: the first register that
the next micro-operation reads although nothing has written it. DESIGN CHOICE, assumption log 2. -/
def State.readBeforeWrite (s : State) : Option RegName := s.ph.reads.find? fun r => !s.holds r

/-- The registers that the rest of a command reads, from a phase of the Encoder on, if it was entered from `G_ENC`. -/
def State.carried (s : State) : List RegName := .encFromGen :: if s.encFromGen.value then [.plen] else []

/-- The registers that a command reads, from the phase it is in on, before it writes them (R30, R34; where R30 names no
phase for a write, assumption log 23). -/
def State.live (s : State) : List RegName :=
  match s.ph with
  | .idle => []
  | .gLen | .gChr | .gUp => [.ilen, .vsel]
  | .gBytes => [.plen, .vsel]
  | .gChain => [.vsel, .kidx, .clen, .plen]
  | .gHex => [.vsel, .kidx, .dig, .plen]
  | .gEnc => [.dig, .plen]
  | .gCat => [.plen, .eolen]
  | .eHex => .elen :: s.carried
  | .eUnits => .elen :: .x :: s.carried
  | .eInit => .ulen :: s.carried
  | .eLoop => .uc :: .ulen :: .rem :: .eolen :: s.carried
  | .eDone => .eolen :: s.carried
  | .done => [.status, .olen]

/-- A register as far as it holds a value. -/
def Reg.held? {α : Type} (r : Reg α) : Option α := if r.held then some r.value else none

/-- A buffer as far as it holds a value, with its length register. -/
def heldBuffer (len : Reg Nat) (buf : Bytes) : Option (Nat × Bytes) := len.held?.map fun n => (n, buf)

/-- Two states agree on every register that holds a value, on which registers do, and on all else: they differ at most in
what stands in registers that hold none (R37, R38). -/
structure State.Agrees (s t : State) : Prop where
  con : s.con = t.con
  ph : s.ph = t.ph
  script : s.script = t.script
  taken : s.taken = t.taken
  cmd : s.cmd.held? = t.cmd.held?
  inp : heldBuffer s.ilen s.inp = heldBuffer t.ilen t.inp
  status : s.status.held? = t.status.held?
  out : heldBuffer s.olen s.out = heldBuffer t.olen t.out
  vsel : s.vsel.held? = t.vsel.held?
  pat : heldBuffer s.plen s.pat = heldBuffer t.plen t.pat
  code : heldBuffer s.clen s.code = heldBuffer t.clen t.code
  kidx : s.kidx.held? = t.kidx.held?
  dig : s.dig.held? = t.dig.held?
  eb : heldBuffer s.elen s.eb = heldBuffer t.elen t.eb
  x : s.x.held? = t.x.held?
  u : heldBuffer s.ulen s.u = heldBuffer t.ulen t.u
  uc : s.uc.held? = t.uc.held?
  rem : s.rem.held? = t.rem.held?
  tmp : s.tmp.held? = t.tmp.held?
  g : s.g.held? = t.g.held?
  eo : heldBuffer s.eolen s.eo = heldBuffer t.eolen t.eo
  md5 : s.md5.held? = t.md5.held?
  encFromGen : s.encFromGen.held? = t.encFromGen.held?

/-! ## The invariant -/

/-- What the core's own rules keep of every state (R22, R28, R31, R34, R50, R76): the digit table, the canonical form of
the spaces, hex text in `X`, 4-bit units in `U`, the bounds of `REM` and `TMP`, a STATUS that is 0..3 with an empty output
on every error, each for what holds a value; and every register holds one that the command in progress goes on to read, so
in `DONE` there is a complete response. -/
structure State.Inv (s : State) : Prop where
  digitTable : s.con.h = digits
  memory : Memory.wf s = true
  hexDigits : s.x.held = true → ∀ c ∈ s.x.value, c ∈ digitCodes.take 16
  units : s.ulen.held = true → ∀ c ∈ s.u, c.toNat ≤ 15
  remBound : s.rem.held = true → s.rem.value.toNat ≤ 3
  tmpBound : s.tmp.held = true → s.tmp.value.toNat ≤ 255
  statusLegal : s.status.held = true → s.status.value.toNat ≤ 3
  errorsEmpty : s.status.held = true → s.olen.held = true ∧ (s.status.value = statusOk ∨ s.out = [])
  liveHeld : ∀ r ∈ s.live, s.holds r = true

/-- A state between micro-operations of different commands: the core is idle or has its response ready, and every
transaction the host will issue is well-formed (R70, A3; DESIGN CHOICE, assumption log 17). -/
def State.Quiet (s : State) : Prop := (s.ph = .idle ∨ s.ph = .done) ∧ ∀ t ∈ s.script, t.wf = true

/-- The transitions of `PH` that R30 lists, each micro-operation's phase and the phases that may follow. -/
def Phase.followers (p : Phase) : List Phase :=
  match p with
  | .idle => [.idle, .gLen, .eHex, .done]
  | .gLen => [.gChr, .done]
  | .gChr => [.gUp, .done]
  | .gUp => [.gBytes]
  | .gBytes => [.gChain]
  | .gChain => [.gHex, .gEnc]
  | .gHex => [.gChain]
  | .gEnc => [.eHex]
  | .gCat => [.done]
  | .eHex => [.eUnits]
  | .eUnits => [.eInit]
  | .eInit => [.eLoop]
  | .eLoop => [.eLoop, .eDone]
  | .eDone => [.gCat, .done]
  | .done => [.idle]

end Sys2Proof.Machine
end

