-- ==== Sys2Proof/Certificates/Slice0/Obligations.lean ====
section
/-! DEFINITION. The statements for the provers. Where one rests on a decision or an inference of the spec's own, or on an
entry of the assumption log, its docstring says so. -/

section

open Sys2Proof Sys2Proof.Machine

/-! ## Command words and the step -/

/-- R72: the opcode map, complete. Decisions D2 (the numbers) are the spec's own. -/
def Obligations.OpcodeMapIsComplete : Prop :=
  ∀ (cmd : Byte) (i : Instr),
    (decode cmd = .ok i ↔
      (cmd = 0x00 ∧ i = .genV1) ∨ (cmd = 0x01 ∧ i = .genV2) ∨ (cmd = 0x02 ∧ i = .enc)) ∧
    ((∃ e, decode cmd = .error e) ↔ 0x03 ≤ cmd.toNat)

/-- R71, R72: decoding the word of a command gives the command, and its fields are those of format `C`. -/
def Obligations.DecodeOfEncodeIsTheCommand : Prop :=
  ∀ i : Instr, decode (encode i) = .ok i ∧ formatC (encode i) = fieldsOf i ∧ (fieldsOf i).wf = true

/-- R72, R78: words written out bit by bit from the opcode map. -/
def Obligations.WrittenOutWordsDecode : Prop :=
  decode 0b00000000#8 = .ok .genV1 ∧ decode 0b00000001#8 = .ok .genV2 ∧ decode 0b00000010#8 = .ok .enc ∧
    decode 0b00000011#8 = .error .reservedOp ∧ decode 0b10000000#8 = .error (.reservedField 0b100000#6)

/-- When the host's next transaction carries a command's word, a step in `IDLE` is `exec` of that command on the state in
which the host has presented the transaction. That the host's transactions stand in State is the model's (log 5). -/
def Obligations.StepRunsTheDecodedCommand : Prop :=
  ∀ (s : State) (t : Transaction) (rest : List Transaction) (i : Instr),
    s.ph = .idle → s.script = t :: rest → decode t.cmd = .ok i →
      step s = exec i { s with script := rest, cmd := .of t.cmd, ilen := .of t.ilen, inp := t.payload }

/-- A reserved command word is answered with `STATUS = 3` and an empty output, and no other state changes but the
interface the host wrote (R30, R78, R193). R78 also advises a refusal: log 8; the empty `OUT` is D14 (log 9). -/
def Obligations.ReservedWordIsAnswered : Prop :=
  ∀ (s : State) (t : Transaction) (rest : List Transaction),
    s.ph = .idle → s.script = t :: rest → 0x03 ≤ t.cmd.toNat →
      step s = .next
        { s with
          script := rest, cmd := .of t.cmd, ilen := .of t.ilen, inp := t.payload
          status := .of 3, olen := .of 0, out := [], ph := .done }

/-- A command word placed as the next fetch is what the next step runs, with an empty payload (log 5). -/
def Obligations.FetchedWordRunsNext : Prop :=
  ∀ (s : State) (i : Instr),
    step (s.withFetchWord 8 (encode i).toNat) =
      exec i { s with ph := .idle, cmd := .of (encode i), ilen := .of 0, inp := [] }

/-- Taking a response: from `DONE` to `IDLE`, the response appended to those the host has taken, all else unchanged (R30,
R201); that it is the next step that takes it is the model's (log 5). -/
def Obligations.TakingTheResponseGoesIdle : Prop :=
  ∀ (s : State) (r : Response), s.ph = .done → s.shows r →
    step s = .next { s with ph := .idle, taken := s.taken ++ [r] }

/-- The core waits in `IDLE` while the host issues nothing (R222, R233; log 5). -/
def Obligations.IdleCoreWaits : Prop :=
  ∀ s : State, s.ph = .idle → s.script = [] → step s = .next s

/-! ## Reset, invariants, the sequencer -/

/-- R37: what reset leaves: the constants of R21 to R25, `PH = IDLE`, and every interface and working register and buffer
marked as holding no value, each buffer as long as its length register says, `DIG` with its 128 bits and the MD5 block
with its 512 (R28). What stands in them is free, and nothing is said of it (log 2); the model's own fields are log 4, 5. -/
def Obligations.ResetLeavesOnlyConstants : Prop :=
  let s := State.reset
  s.con.t.toList = [0x47, 0x4E, 0x35, 0x42, 0x48, 0x38, 0x51, 0x4A, 0x53, 0x41, 0x43, 0x30, 0x4D, 0x46, 0x52, 0x36,
      0x50, 0x34, 0x56, 0x45, 0x54, 0x31, 0x4F, 0x37, 0x4B, 0x39, 0x55, 0x32, 0x4C, 0x44, 0x33, 0x49] ∧
    (∀ i : Fin 32, (s.con.h[i]).toNat = if i.val < 10 then 0x30 + i.val else 0x61 + (i.val - 10)) ∧
    s.con.vr.v1.typeLen = 2 ∧ s.con.vr.v1.varLen = 4 ∧
    s.con.vr.v1.keys.toList = [[0x41, 0x31, 0x34, 0x2B, 0x42, 0x44, 0x4D, 0x37, 0x31, 0x44],
      [0x51, 0x4B, 0x33, 0x35, 0x2B, 0x4E, 0x49, 0x38, 0x57, 0x56]] ∧
    s.con.vr.v2 = { typeLen := Config.v2TypeLen, varLen := Config.v2VarLen, keys := Config.v2Keys } ∧
    s.ph = .idle ∧
    [s.cmd.held, s.ilen.held, s.status.held, s.olen.held, s.vsel.held, s.plen.held, s.clen.held, s.kidx.held, s.dig.held,
      s.elen.held, s.x.held, s.ulen.held, s.uc.held, s.rem.held, s.tmp.held, s.g.held, s.eolen.held, s.md5.held]
        = List.replicate 18 false ∧
    [s.ilen.value, s.olen.value, s.plen.value, s.clen.value, s.elen.value, s.ulen.value, s.eolen.value]
        = [s.inp.length, s.out.length, s.pat.length, s.code.length, s.eb.length, s.u.length, s.eo.length] ∧
    8 * s.dig.value.length = 128 ∧ 8 * s.md5.value.blk.length = 512

/-- The invariant holds at reset, and the reset core is between commands (R22, R37). That each buffer fits its length register
while neither holds a value, a part of the invariant, is the model's choice (log 2), and so is the empty script of the host
(log 5), by which no transaction is left to be well-formed (log 17). -/
def Obligations.ResetMeetsTheInvariant : Prop := State.reset.Inv ∧ State.reset.Quiet

/-- Every step keeps the invariant: the digit table, the canonical form of the spaces, hex text in `X`, 4-bit units, the
bounds of `REM` and `TMP`, a legal STATUS and an empty output on every error, and in every register that the command in
progress goes on to read a value (R22, R28, R31, R34, R50, R76, R102); which phase performs `KIDX <- 0`, the load of `EB` by
an `ENC` and its copy to `OUT` is the model's (log 23), and so is that a buffer without a value fits its length register
(log 2). -/
def Obligations.StepKeepsTheInvariant : Prop :=
  ∀ s t : State, s.Inv → step s = .next t → t.Inv

/-- No step reads a register before it is written. In every state with the invariant, which reset has and every step keeps,
R38's report is empty; and from two such states that differ at most in what stands in registers that hold no value, the
steps answer alike, and their states differ at most so again (R34, R37, R38). That a register without a value has one to
read, and that R38's fault is reported beside the machine, is the model's (log 2); so is which phase performs three writes
that R30 puts in none (log 23). -/
def Obligations.NoStepReadsBeforeAWrite : Prop :=
  (∀ s : State, s.Inv → s.readBeforeWrite = none) ∧
    ∀ s s' : State, s.Inv → s.Agrees s' →
      (∀ f, step s = .fault f → step s' = .fault f) ∧ ∀ t, step s = .next t → ∃ t', step s' = .next t' ∧ t.Agrees t'

/-- R225: no command and no host move changes the constant state. -/
def Obligations.NothingChangesTheConstants : Prop :=
  (∀ (i : Instr) (s t : State), exec i s = .next t → t.con = s.con) ∧
    (∀ s t : State, step s = .next t → t.con = s.con) ∧
    (∀ (r : Transaction) (s : State), (present r s).con = s.con) ∧
    (∀ s t : State, takeResponse s = .ok t → t.con = s.con)

/-- Between commands a step never stops, and leaves the core between commands: no index out of range, no failing lookup
(R62, R194, R232). The host's transactions in State are the model's (log 5), and that they are well-formed is host assumption
A3 (log 17). -/
def Obligations.QuietCoreNeverStops : Prop :=
  ∀ s : State, s.Inv → s.Quiet → ∃ t, step s = .next t ∧ t.Quiet

/-- One step of the machine is a run of the sequencer's micro-operations from the same state, faults included (R13, R30,
R227; log 10; the phases of three writes that R30 puts in none, log 23). -/
def Obligations.StepIsARunOfMicroOperations : Prop :=
  ∀ s : State, ∃ n, step s = toOutcome (microOps n s)

/-- Every micro-operation goes from its phase to one that R30 lists after it. -/
def Obligations.MicroOperationsFollowThePhases : Prop :=
  ∀ s t : State, microOp s = .ok t → t.ph ∈ s.ph.followers

/-- Where R30 gives a phase two followers, which of them follows: on the length, the characters, the keys left, the cursor
and the Encoder's entry (the last held in the model's own field, log 4). -/
def Obligations.PhasesBranchOnTheirConditions : Prop :=
  ∀ s t : State, microOp s = .ok t →
    let cfg := s.con.vr.config (variantOf s.vsel.value)
    (s.ph = .gLen → if s.ilen.value = patternLength cfg then t.ph = .gChr else t.ph = .done ∧ t.status = .of 1) ∧
    (s.ph = .gChr → if ∃ c ∈ s.inp.take s.ilen.value, outsideClasses c then t.ph = .done ∧ t.status = .of 2
      else t.ph = .gUp) ∧
    (s.ph = .gChain → if s.kidx.value < cfg.keys.nkeys - 1 then t.ph = .gHex else t.ph = .gEnc) ∧
    (s.ph = .eLoop → if s.uc.value < s.ulen.value then t.ph = .eLoop else t.ph = .eDone) ∧
    (s.ph = .eDone → if s.encFromGen.value = true then t.ph = .gCat else t.ph = .done ∧ t.status = .of 0)

/-- A command that answers ends in `DONE` with a complete, legal response, and leaves the host's side, which is the
model's own (log 5), and the constants as they were (R30, R76, R77, R209). -/
def Obligations.CommandEndsWithAResponse : Prop :=
  ∀ (i : Instr) (s t : State), exec i s = .next t →
    t.ph = .done ∧ (∃ r, t.shows r ∧ r.wf = true) ∧
      t.con = s.con ∧ t.cmd = s.cmd ∧ t.ilen = s.ilen ∧ t.inp = s.inp ∧ t.script = s.script ∧ t.taken = s.taken

/-- A raised error writes `STATUS`, `OLEN`, `PH` and an empty `OUT`, and nothing else (R76, R199; D14 is the spec's own
decision on `OUT`, log 9). -/
def Obligations.RaiseWritesOnlyTheResponse : Prop :=
  ∀ s : State,
    raiseError .invalidLength s = { s with status := .of 1, olen := .of 0, out := [], ph := .done } ∧
    raiseError .invalidCharacters s = { s with status := .of 2, olen := .of 0, out := [], ph := .done } ∧
    raiseError .illegalCommand s = { s with status := .of 3, olen := .of 0, out := [], ph := .done }

/-- A payload shorter than `ILEN` is a fault for every command that reads it, and no response is given (R62). It breaks host
assumption A3, and that it is a fault is the model's (log 13). -/
def Obligations.ShortPayloadsAreFaults : Prop :=
  ∀ s : State, s.inp.length < s.ilen.value →
    exec .enc s = .fault (.outOfRange .inp s.inp.length) ∧
    (s.ilen.value = patternLength s.con.vr.v1 → exec .genV1 s = .fault (.outOfRange .inp s.inp.length)) ∧
    (s.ilen.value = patternLength s.con.vr.v2 → exec .genV2 s = .fault (.outOfRange .inp s.inp.length))

/-! ## The Encoder -/

/-- `ENC` completes on every payload, in exactly the state of the closed form (R100 to R111); the bit order is D4, and the
last symbol is D3, both the spec's decisions (log 7). `encDone` also writes the model's own field `encFromGen`, false for
an `ENC` (DEDUCED, log 4). -/
def Obligations.EncCompletesInClosedForm : Prop :=
  ∀ (s : State) (bs : Bytes), s.con.h = digits → s.holdsPayload bs →
    ∃ tmp g, exec .enc s = .next (encDone finalRaw s bs tmp g)

/-- Under every `FINAL_RAW` into 0..15, `ENC` completes; all symbols but the last are those of the spec's reading, the last
one too when the length is a multiple of 5, and else it is one of `T[0] .. T[3]` (R106, D3, I2). -/
def Obligations.OnlyTheLastSymbolDependsOnFinalRaw : Prop :=
  ∀ (fr : FinalRaw) (s : State) (bs : Bytes), s.con.h = digits → s.holdsPayload bs →
    ∃ t, encCommand fr s = .ok t ∧ t.out.dropLast = (encText finalRaw s.con.t bs).dropLast ∧
      (bs.length % 5 = 0 → t.out = encText finalRaw s.con.t bs) ∧
      (bs.length % 5 ≠ 0 → ∃ k : Fin 4, t.out.getLast? = some s.con.t[k.val])

/-- R112: `ENC` refuses nothing and raises no error; the empty buffer gives the empty string; the output is a function of
the payload alone, with characters of `T` only, whatever the registry, the MD5 tables and the working state are. -/
def Obligations.EncIsTotalAndPure : Prop :=
  ∀ (s : State) (bs : Bytes), s.con.h = digits → s.holdsPayload bs →
    ∃ t, exec .enc s = .next t ∧ t.status = .of 0 ∧ (bs = [] → t.out = []) ∧ (∀ c ∈ t.out, c ∈ s.con.t.toList) ∧
      ∀ s' : State, s'.con.t = s.con.t → s'.con.h = s.con.h → s'.holdsPayload bs →
        ∃ t', exec .enc s' = .next t' ∧ t'.status = t.status ∧ t'.olen = t.olen ∧ t'.out = t.out

/-- The output has `ceil(8N/5)` symbols, and the unit cursor ends on `ULEN` or one beyond it (R36, R109: both inferences
of the spec's). -/
def Obligations.EncLengthAndFinalCursor : Prop :=
  ∀ (s t : State) (bs : Bytes), s.con.h = digits → s.holdsPayload bs → exec .enc s = .next t →
    t.olen = .of ((8 * bs.length + 4) / 5) ∧ t.out.length = (8 * bs.length + 4) / 5 ∧
      t.ulen = .of (2 * bs.length) ∧ (t.uc = .of (2 * bs.length) ∨ t.uc = .of (2 * bs.length + 1))

/-- Two 16-byte inputs that differ only in the two least significant bits of byte 15 encode alike (R114, an inference of
the spec's from D3, log 7). -/
def Obligations.EncDropsTheTwoLowestBitsOfADigest : Prop :=
  ∀ (s t s' t' : State) (bs bs' : Bytes),
    s.con.h = digits → s'.con = s.con → s.holdsPayload bs → s'.holdsPayload bs' → bs.length = 16 → bs'.length = 16 →
    bs.take 15 = bs'.take 15 → bs.getD 15 0 >>> 2 = bs'.getD 15 0 >>> 2 →
    exec .enc s = .next t → exec .enc s' = .next t' → t.out = t'.out

/-- R101: ENC.HEX writes the two digits of each byte, the high nibble's first, and nothing else. -/
def Obligations.HexMicroOperationWritesTheDigits : Prop :=
  ∀ s : State, s.elen.value = s.eb.length →
    ∃ x, encHex s = .ok { s with x := .of x } ∧ x.length = 2 * s.eb.length ∧
      ∀ (j : Nat) (b : Byte), s.eb[j]? = some b →
        x[2 * j]? = s.con.h.toList[b.toNat / 16]? ∧
        x[2 * j + 1]? = s.con.h.toList[b.toNat % 16]?

/-- After ENC.HEX and ENC.UNITS the unit buffer holds the high and the low nibble of each byte, with the upper four bits of
every cell 0 (R101, R102; that the units are the nibbles is R82's inference). -/
def Obligations.UnitsAreTheNibbles : Prop :=
  ∀ s : State, s.con.h = digits → s.elen.value = s.eb.length →
    ∃ (x u : Bytes), (encHex s >>= encUnits) = .ok { s with x := .of x, u := u, ulen := .of (2 * s.eb.length) } ∧
      ∀ (j : Nat) (b : Byte), s.eb[j]? = some b →
        (u[2 * j]?.map BitVec.toNat = some (b.toNat / 16)) ∧ (u[2 * j + 1]?.map BitVec.toNat = some (b.toNat % 16))

/-- ENC.PAIR writes the window of two units and the five bits its table names, `rem` places below the top, and nothing
else (R105; the bit order is D4, the spec's decision). -/
def Obligations.PairTakesFiveBitsBelowRem : Prop :=
  ∀ (s : State) (u0 u1 : Byte),
    s.rem.value.toNat ≤ 3 → s.u[s.uc.value]? = some u0 → s.u[s.uc.value + 1]? = some u1 → u0.toNat ≤ 15 → u1.toNat ≤ 15 →
      ∃ (tmp : Word) (g : BitVec 5), encPair s = .ok { s with tmp := .of tmp, g := .of g } ∧
        tmp.toNat = 16 * u0.toNat + u1.toNat ∧ g.toNat = (16 * u0.toNat + u1.toNat) / 2 ^ (3 - s.rem.value.toNat) % 32

/-- ENC.FINAL, under every `FINAL_RAW` and every `REM`: the raw value in `TMP`, shifted right by exactly 2 in `G`, so in 0..3, and nothing
else written (R106). -/
def Obligations.FinalUnitIsShiftedByTwo : Prop :=
  ∀ (fr : FinalRaw) (s : State) (u : Byte), s.u[s.uc.value]? = some u →
    ∃ (tmp : Word) (g : BitVec 5), encFinal fr s = .ok { s with tmp := .of tmp, g := .of g } ∧
      tmp.toNat = (fr (u.setWidth 4) s.rem.value.toNat).toNat ∧ g.toNat = tmp.toNat / 4 ∧ g.toNat ≤ 3

/-- R107: ENC.SYM appends `T[G]` and counts it. -/
def Obligations.SymbolIsAppended : Prop :=
  ∀ s : State, s.eolen.value = s.eo.length →
    encSym s = .ok
      { s with
        eo := s.eo ++ [s.con.t[s.g.value.toNat]'(s.g.value.isLt)], eolen := .of (s.eo.length + 1) }

/-- R108: ENC.ADV moves the cursor on by five bits, from every cursor: one unit when the old `REM` is 0, 1 or 2, two when
it is 3. -/
def Obligations.AdvanceMovesFiveBits : Prop :=
  ∀ s : State,
    ∃ (uc' : Nat) (rem' : BitVec 4), encAdv s = { s with uc := .of uc', rem := .of rem' } ∧
      4 * uc' + rem'.toNat = 4 * s.uc.value + s.rem.value.toNat + 5 ∧ rem'.toNat ≤ 3 ∧
      (s.rem.value.toNat ≤ 2 → uc' = s.uc.value + 1 ∧ rem'.toNat = s.rem.value.toNat + 1) ∧
      (s.rem.value.toNat = 3 → uc' = s.uc.value + 2 ∧ rem'.toNat = 0)

/-! ## The Generator -/

/-- `GEN.V1` completes on every alphanumeric pattern of its length, in exactly the state of the rules (R130, R132 to R141);
the last symbol rests on D3 (log 7), `KIDX` at the end on log 11, the MD5 registers at the end on log 15 and, the length
counter, log 21. `genDone` also writes the model's own field `encFromGen`, true for a GEN (DEDUCED, log 4). -/
def Obligations.GenV1CompletesInClosedForm : Prop :=
  ∀ (s : State) (bs : Bytes), s.con.h = digits → s.holdsPayload bs → bs.length = patternLength s.con.vr.v1 →
    bs.all isAlphanumeric = true → ∃ tmp g, exec .genV1 s = .next (genDone finalRaw (s.select 0) s.con.vr.v1 bs tmp g)

/-- `GEN.V2` completes on every alphanumeric pattern of its length, whatever V2's values are (R131, D10, log 1), in exactly
the state of the rules; the last symbol rests on D3 (log 7), `KIDX` at the end on log 11, the MD5 registers at the end on
log 15 and, the length counter, log 21. `genDone` also writes the model's own field `encFromGen`, true for a GEN (DEDUCED,
log 4). -/
def Obligations.GenV2CompletesInClosedForm : Prop :=
  ∀ (s : State) (bs : Bytes), s.con.h = digits → s.holdsPayload bs → bs.length = patternLength s.con.vr.v2 →
    bs.all isAlphanumeric = true → ∃ tmp g, exec .genV2 s = .next (genDone finalRaw (s.select 1) s.con.vr.v2 bs tmp g)

/-- `GEN.V1` with the registry entry of R24: six alphanumeric characters give 32 bytes, the uppercased pattern and the
encoded HMAC-MD5 under the second key of the hex text of the HMAC-MD5 under the first (R130, R137, R139, R141; the encoded
text's last symbol rests on D3, log 7). -/
def Obligations.GenV1OfSixCharacters : Prop :=
  ∀ (s : State) (bs : Bytes), s.con = constants → s.holdsPayload bs → bs.length = 6 → bs.all isAlphanumeric = true →
    ∃ t, exec .genV1 s = .next t ∧ t.status = .of 0 ∧ t.olen = .of 32 ∧
      t.dig = .of (hmacMd5 md5Tables [0x51, 0x4B, 0x33, 0x35, 0x2B, 0x4E, 0x49, 0x38, 0x57, 0x56]
        (hexText digits (hmacMd5 md5Tables [0x41, 0x31, 0x34, 0x2B, 0x42, 0x44, 0x4D, 0x37, 0x31, 0x44] (bs.map up)))) ∧
      t.out = bs.map up ++ encText finalRaw alphabet t.dig.value

/-- `InvalidLength` when and only when the payload's length is not the variant's, whatever its bytes are (R191), `VSEL`
being written by the command (R130, R131) and `STATUS`, `OLEN` and `PH` by the error, and nothing else but `OUT` (R76, R77,
R199). A payload that is wrong in both ways is C1's case (R197, log 19); the empty `OUT` is D14 (log 9, DEDUCED). -/
def Obligations.InvalidLengthExactlyOnAWrongLength : Prop :=
  ∀ s : State,
    (s.ilen.value ≠ patternLength s.con.vr.v1 →
      exec .genV1 s = .next { s with vsel := .of 0, status := .of 1, olen := .of 0, out := [], ph := .done }) ∧
    (s.ilen.value ≠ patternLength s.con.vr.v2 →
      exec .genV2 s = .next { s with vsel := .of 1, status := .of 1, olen := .of 0, out := [], ph := .done }) ∧
    (∀ t, exec .genV1 s = .next t → t.status = .of 1 → s.ilen.value ≠ patternLength s.con.vr.v1) ∧
    (∀ t, exec .genV2 s = .next t → t.status = .of 1 → s.ilen.value ≠ patternLength s.con.vr.v2)

/-- `InvalidCharacters` when the length is right and a payload byte is outside the classes, and only then (R134, R192),
`VSEL` being written by the command (R130, R131) and `STATUS`, `OLEN` and `PH` by the error, and nothing else but `OUT`, so
no chain step has run (R76, R77, R199). The empty `OUT` is D14 (log 9, DEDUCED). -/
def Obligations.InvalidCharactersExactlyOnABadByte : Prop :=
  ∀ (s : State) (bs : Bytes), s.holdsPayload bs →
    (bs.length = patternLength s.con.vr.v1 → (∃ c ∈ bs, outsideClasses c) →
      exec .genV1 s = .next { s with vsel := .of 0, status := .of 2, olen := .of 0, out := [], ph := .done }) ∧
    (bs.length = patternLength s.con.vr.v2 → (∃ c ∈ bs, outsideClasses c) →
      exec .genV2 s = .next { s with vsel := .of 1, status := .of 2, olen := .of 0, out := [], ph := .done }) ∧
    (∀ t, exec .genV1 s = .next t → t.status = .of 2 →
      bs.length = patternLength s.con.vr.v1 ∧ ∃ c ∈ bs, outsideClasses c) ∧
    (∀ t, exec .genV2 s = .next t → t.status = .of 2 →
      bs.length = patternLength s.con.vr.v2 ∧ ∃ c ∈ bs, outsideClasses c)

/-- Two payloads that differ only in the case of letters give identical responses, under either variant (R143, an inference
of the spec's; source property V-S2). -/
def Obligations.CaseOfLettersDoesNotMatter : Prop :=
  ∀ (i : Instr) (s s' t t' : State) (bs bs' : Bytes), i ≠ .enc →
    s'.con = s.con → s.con.h = digits → s.holdsPayload bs → s'.holdsPayload bs' → bs.map up = bs'.map up →
    exec i s = .next t → exec i s' = .next t' → t.status = t'.status ∧ t.olen = t'.olen ∧ t.out = t'.out

/-- A successful GEN returns the pattern's length and 26 bytes; the front part is digits and uppercase letters, the suffix
characters of `T`, and its last character one of `T[0] .. T[3]` (R142, R145: inferences of the spec's). -/
def Obligations.GeneratedCodeHasItsShape : Prop :=
  ∀ (i : Instr) (s t : State) (bs : Bytes), i ≠ .enc → s.con.h = digits → s.holdsPayload bs →
    exec i s = .next t → t.status = .of 0 →
      t.olen = .of (bs.length + 26) ∧ t.out.length = bs.length + 26 ∧
        (∀ c ∈ t.out.take bs.length,
          (0x30 ≤ c.toNat ∧ c.toNat ≤ 0x39) ∨ (0x41 ≤ c.toNat ∧ c.toNat ≤ 0x5A)) ∧
        (∀ c ∈ t.out.drop bs.length, c ∈ s.con.t.toList) ∧ ∃ k : Fin 4, t.out.getLast? = some s.con.t[k.val]

/-- The suffix of a generated code is what `ENC` gives for the final digest (R140, R141; program P3). -/
def Obligations.SuffixIsEncOfTheFinalDigest : Prop :=
  ∀ (i : Instr) (s t s' t' : State) (bs : Bytes), i ≠ .enc → s.con.h = digits → s.holdsPayload bs →
    exec i s = .next t → t.status = .of 0 → s'.con = s.con → s'.holdsPayload t.dig.value →
      exec .enc s' = .next t' → t.out = bs.map up ++ t'.out ∧ t.dig.value.length = 16

/-- R137: for every key sequence, the chain uses each key exactly once, in order; each digest but the last is the next
message as hex text, and the last stays raw. `KIDX` at the end is log 11, the MD5 registers at the end log 15 and, the
length counter, log 21. -/
def Obligations.ChainFoldsOverTheKeys : Prop :=
  ∀ s : State, s.clen = .of s.code.length →
    let keys := (s.con.vr.config (variantOf s.vsel.value)).keys
    let last := chainEnd s.con keys s.code
    genChain s = .ok
      { s with
        code := last.2, clen := .of last.2.length, kidx := .of keys.rest.length
        dig := .of (hmacMd5 s.con.md5 last.1 last.2), md5 := .of (hmacRun s.con.md5 last.1 last.2) }

/-- R138: GEN.HEX writes the 32 lowercase hex digits of the digest into `CODE`, the high nibble's first; the step to the
next key is R30's. -/
def Obligations.ChainTextIsTheDigestInHex : Prop :=
  ∀ s : State, s.dig.value.length = 16 →
    ∃ code, genHex s = .ok { s with code := code, clen := .of 32, kidx := .of (s.kidx.value + 1) } ∧ code.length = 32 ∧
      ∀ (j : Nat) (b : Byte), s.dig.value[j]? = some b →
        code[2 * j]? = s.con.h.toList[b.toNat / 16]? ∧
        code[2 * j + 1]? = s.con.h.toList[b.toNat % 16]?

/-- R141: GEN.CAT composes the output of the uppercased pattern and the encoded suffix, and ends the command. -/
def Obligations.OutputIsPatternThenSuffix : Prop :=
  ∀ s : State, s.plen.value = s.pat.length → s.eolen.value = s.eo.length →
    genCat s = .ok
      { s with
        out := s.pat ++ s.eo, olen := .of (s.pat.length + s.eo.length), status := .of 0, ph := .done }

/-! ## Whole transactions -/

/-- A command answers, and its response is a function of its payload and the constant state (R7), whatever any earlier
command left in every other field. R7 names no function: this one gives the last symbol under D3 (log 7) and
`InvalidLength` to a payload that is wrong in both ways (C1, log 19). -/
def Obligations.ResponseDependsOnPayloadAndConstantsOnly : Prop :=
  ∀ (i : Instr) (s s' : State) (bs : Bytes),
    s.con.h = digits → s'.con = s.con → s.holdsPayload bs → s'.holdsPayload bs →
      ∃ t t' r, exec i s = .next t ∧ exec i s' = .next t' ∧ t.shows r ∧ t'.shows r ∧
        r = instrResponse finalRaw s.con i bs

/-- Every well-formed script of transactions, from any idle state, is served in order: after two steps for each, the host
has taken exactly the responses of the pure function, errors and reserved words included, and the core is idle (R7, R34,
R201, R226, R233). The script is the model's (log 5); the function gives the last symbol under D3 (log 7), the answer to a
reserved word as log 8, and `InvalidLength` to a payload that is wrong in both ways (C1, log 19). -/
def Obligations.RunServesEveryTransaction : Prop :=
  ∀ (s : State) (ts : List Transaction),
    s.ph = .idle → s.script = ts → s.con.h = digits → (∀ t ∈ ts, t.wf = true) →
      ∃ s' : State, Host.Core.run core (2 * ts.length) s = .next s' ∧ s'.ph = .idle ∧ s'.script = [] ∧ s'.con = s.con ∧
        s'.taken = s.taken ++ ts.map (commandResponse finalRaw s.con)

/-- A step of instance `k` gives instance `k` exactly the next state of the core's step on its own state and leaves every
other instance as it was; it happens whenever instance `k` exists and its step answers. So the steps of two instances
commute (R208; one whole step at a time is log 16). -/
def Obligations.InstancesDoNotInterfere : Prop :=
  (∀ (cores after : List State) (k : Nat), stepInstance k cores = some after ↔
    ∃ s t, cores[k]? = some s ∧ step s = .next t ∧ after.length = cores.length ∧ after[k]? = some t ∧
      ∀ j, j ≠ k → after[j]? = cores[j]?) ∧
  ∀ (cores : List State) (j k : Nat), j ≠ k →
    (stepInstance j cores).bind (stepInstance k) = (stepInstance k cores).bind (stepInstance j)

/-- Any number of idle instances, each with its own script of well-formed transactions, whatever the interleaving of their
steps: if every instance makes two steps for each of its transactions, each ends idle with exactly the responses of its
own script (R64, R208; program P5). The scripts are the model's (log 5), the interleaving log 16; the responses give the
last symbol under D3 (log 7), reserved words as log 8, and a payload wrong in both ways as C1 (log 19). -/
def Obligations.EveryInterleavingServesEachInstance : Prop :=
  ∀ (cores : List State) (schedule : List Nat),
    (∀ k ∈ schedule, k < cores.length) →
    (∀ (k : Nat) (s : State), cores[k]? = some s →
      s.ph = .idle ∧ s.con.h = digits ∧ (∀ t ∈ s.script, t.wf = true) ∧ schedule.count k = 2 * s.script.length) →
    ∃ after, runInstances schedule cores = some after ∧ after.length = cores.length ∧
      ∀ (k : Nat) (s : State), cores[k]? = some s → ∃ t, after[k]? = some t ∧ t.ph = .idle ∧ t.script = [] ∧
        t.con = s.con ∧ t.taken = s.taken ++ s.script.map (commandResponse finalRaw s.con)

/-- A command line with no variant issues `GEN.V2` (R87), and each named variant its own command (R86). -/
def Obligations.CommandLineDefaultsToV2 : Prop :=
  ∀ p : Bytes,
    (CommandLine.mk none p).transaction = { cmd := 0x01, ilen := p.length, payload := p } ∧
    (CommandLine.mk (some .v1) p).transaction = { cmd := 0x00, ilen := p.length, payload := p } ∧
    (CommandLine.mk (some .v2) p).transaction = { cmd := 0x01, ilen := p.length, payload := p }

/-- The wrapper always finishes: with a code line of `/`, the code and `CLI_LINE_END`, which is empty or a newline, and exit
code 0, when the command succeeds, and with no code line and a non-zero exit code when it fails (R88, R200, D17; the open
points are log 12, the newline's byte log 22). The code's last symbol rests on D3 (log 7). -/
def Obligations.WrapperPrintsTheCodeOrFails : Prop :=
  ∀ line : CommandLine, ∃ res, runCommandLine line = some res ∧
    let r := commandResponse finalRaw constants line.transaction
    (r.status = 0 → ∃ lineEnd, (lineEnd = [] ∨ lineEnd = [0x0A]) ∧ lineEnd = Config.cliLineEnd ∧
      res.codeLine = some (0x2F :: r.out ++ lineEnd) ∧ res.exitCode = 0) ∧
      (r.status ≠ 0 → res.codeLine = none ∧ 1 ≤ res.exitCode ∧ res.exitCode ≤ 255)

/-! ## HMAC and MD5 -/

/-- R165: the padded message is the message, 0x80, the fewest zero bytes that make the length 56 modulo 64, and the bit
length in 8 bytes, least significant first: `64 * ((L + 8) div 64 + 1)` bytes. -/
def Obligations.PaddingFillsWholeBlocks : Prop :=
  ∀ msg : Bytes, msg.length < 2 ^ 61 →
    ∃ (z : Nat) (len : Bytes), md5Pad msg = msg ++ [0x80] ++ List.replicate z 0 ++ len ∧
      (msg.length + 1 + z) % 64 = 56 ∧ z < 64 ∧ len.length = 8 ∧
      (∀ (k : Nat) (b : Byte), len[k]? = some b → b.toNat = (8 * msg.length) / 256 ^ k % 256) ∧
      (md5Pad msg).length = 64 * ((msg.length + 8) / 64 + 1)

/-- R176: MD5 and HMAC-MD5 refuse no input and always give 16 bytes. -/
def Obligations.DigestsHaveSixteenBytes : Prop :=
  ∀ (tab : Md5Tables) (key msg : Bytes), (md5 tab msg).length = 16 ∧ (hmacMd5 tab key msg).length = 16

/-- R162: the block key of a key of any length, always 64 bytes; a key of exactly 64 bytes is used as it stands. -/
def Obligations.BlockKeyIsSixtyFourBytes : Prop :=
  ∀ (tab : Md5Tables) (key : Bytes),
    (blockKey tab key).length = 64 ∧
      (64 < key.length → blockKey tab key = md5 tab key ++ List.replicate 48 0) ∧
      (key.length ≤ 64 → ∃ z, blockKey tab key = key ++ List.replicate z 0 ∧ key.length + z = 64) ∧
      (key.length = 64 → blockKey tab key = key)

/-- R161: HMAC-MD5 by its two MD5 calls over the padded block key; the message of the outer call has 80 bytes. -/
def Obligations.HmacIsTwoHashes : Prop :=
  ∀ (tab : Md5Tables) (key msg : Bytes), ∃ ipad opad inner : Bytes,
    ipad.length = 64 ∧ opad.length = 64 ∧
      (∀ i : Nat, ipad[i]? = ((blockKey tab key)[i]?).map (· ^^^ 0x36)) ∧
      (∀ i : Nat, opad[i]? = ((blockKey tab key)[i]?).map (· ^^^ 0x5C)) ∧
      inner = md5 tab (ipad ++ msg) ∧ hmacMd5 tab key msg = md5 tab (opad ++ inner) ∧ (opad ++ inner).length = 80

/-- R166: message word `j` of a block is its bytes `4j .. 4j+3`, the first least significant. -/
def Obligations.MessageWordsAreLittleEndian : Prop :=
  ∀ (blk : Bytes) (j : Fin 16), blk.length = 64 → ∃ b0 b1 b2 b3 : Byte,
    blk[4 * j.val]? = some b0 ∧ blk[4 * j.val + 1]? = some b1 ∧ blk[4 * j.val + 2]? = some b2 ∧
      blk[4 * j.val + 3]? = some b3 ∧
      ((blockWords blk)[j]).toNat = b0.toNat + 256 * b1.toNat + 65536 * b2.toNat + 16777216 * b3.toNat

/-- R174: byte `4w + n` of the digest is bits `8n+7 : 8n` of word `w`. -/
def Obligations.DigestBytesAreLittleEndian : Prop :=
  ∀ (r : Md5Regs) (w n : Fin 4),
    (serialize r)[4 * w.val + n.val]? = some (([r.a0, r.b0, r.c0, r.d0][w]).extractLsb' (8 * n.val) 8)

/-- R169: the message word indices, written out. -/
def Obligations.WordIndicesAreAsWrittenOut : Prop :=
  ((List.range 64).map fun i => (wordIndex i).val) =
    [0, 1, 2, 3, 4, 5, 6, 7, 8, 9, 10, 11, 12, 13, 14, 15,
     1, 6, 11, 0, 5, 10, 15, 4, 9, 14, 3, 8, 13, 2, 7, 12,
     5, 8, 11, 14, 1, 4, 7, 10, 13, 0, 3, 6, 9, 12, 15, 2,
     0, 7, 14, 5, 12, 3, 10, 1, 8, 15, 6, 13, 4, 11, 2, 9]

/-- R167, R170, R171: the MD5 tables: the initial words, the rotation amounts and the additive constants. -/
def Obligations.Md5TablesHoldTheirValues : Prop :=
  let tab := State.reset.con.md5
  tab.ivA = 0x67452301 ∧ tab.ivB = 0xEFCDAB89 ∧ tab.ivC = 0x98BADCFE ∧ tab.ivD = 0x10325476 ∧
    tab.rot.toList =
      [7, 12, 17, 22, 7, 12, 17, 22, 7, 12, 17, 22, 7, 12, 17, 22, 5, 9, 14, 20, 5, 9, 14, 20, 5, 9, 14, 20, 5, 9, 14, 20,
        4, 11, 16, 23, 4, 11, 16, 23, 4, 11, 16, 23, 4, 11, 16, 23, 6, 10, 15, 21, 6, 10, 15, 21, 6, 10, 15, 21,
        6, 10, 15, 21] ∧
    tab.k.toList.take 32 =
      [0xd76aa478, 0xe8c7b756, 0x242070db, 0xc1bdceee,
        0xf57c0faf, 0x4787c62a, 0xa8304613, 0xfd469501,
        0x698098d8, 0x8b44f7af, 0xffff5bb1, 0x895cd7be,
        0x6b901122, 0xfd987193, 0xa679438e, 0x49b40821,
        0xf61e2562, 0xc040b340, 0x265e5a51, 0xe9b6c7aa,
        0xd62f105d, 0x02441453, 0xd8a1e681, 0xe7d3fbc8,
        0x21e1cde6, 0xc33707d6, 0xf4d50d87, 0x455a14ed,
        0xa9e3e905, 0xfcefa3f8, 0x676f02d9, 0x8d2a4c8a] ∧
    tab.k.toList.drop 32 =
      [0xfffa3942, 0x8771f681, 0x6d9d6122, 0xfde5380c,
        0xa4beea44, 0x4bdecfa9, 0xf6bb4b60, 0xbebfbc70,
        0x289b7ec6, 0xeaa127fa, 0xd4ef3085, 0x04881d05,
        0xd9d4d039, 0xe6db99e5, 0x1fa27cf8, 0xc4ac5665,
        0xf4292244, 0x432aff97, 0xab9423a7, 0xfc93a039,
        0x655b59c3, 0x8f0ccc92, 0xffeff47d, 0x85845dd1,
        0x6fa87e4f, 0xfe2ce6e0, 0xa3014314, 0x4e0811a1,
        0xf7537e82, 0xbd3af235, 0x2ad7d2bb, 0xeb86d391]

/-- R168: bit `k` of the round functions, by the steps' four ranges. -/
def Obligations.RoundFunctionsAreBitwise : Prop :=
  ∀ (i : Fin 64) (b c d : Word) (k : Fin 32),
    (roundF i b c d).getLsbD k =
      if i.val < 16 then (if b.getLsbD k then c.getLsbD k else d.getLsbD k)
      else if i.val < 32 then (if d.getLsbD k then b.getLsbD k else c.getLsbD k)
      else if i.val < 48 then (b.getLsbD k ^^ c.getLsbD k ^^ d.getLsbD k)
      else (c.getLsbD k ^^ (b.getLsbD k || !d.getLsbD k))

/-- R172: one step of the compression under the MD5 tables: the sum modulo 2^32 in `F`, the three moves with the old
values, `B` grown by `F` rotated left by `S[i]`, and nothing else written. -/
def Obligations.CompressionStepUsesTheOldValues : Prop :=
  ∀ (r : Md5Regs) (i : Fin 64),
    let tab := State.reset.con.md5
    ∃ f b : Word,
      md5Step tab r i = { r with f := f, a := r.d, d := r.c, c := r.b, b := r.b + b } ∧
      f.toNat = ((roundF i r.b r.c r.d).toNat + r.a.toNat + (tab.k[i]).toNat + (r.m[wordIndex i]).toNat) % 2 ^ 32 ∧
      ∀ k : Fin 32, b.getLsbD k = f.getLsbD ((k.val + 32 - tab.rot[i]) % 32)

/-- MD5 runs `Compress` over the blocks of the padded message in order, from the initial words, and each block adds the
64 steps' working words to the chaining words (R164, R173; the length of a message of 2^61 bytes or more is log 6). -/
def Obligations.Md5FoldsOverTheBlocks : Prop :=
  ∀ (tab : Md5Tables) (msg : Bytes), ∃ (blocks : List Bytes) (r : Md5Regs),
    blocks.flatten = md5Pad msg ∧ (∀ b ∈ blocks, b.length = 64) ∧
      (r.a0 = tab.ivA ∧ r.b0 = tab.ivB ∧ r.c0 = tab.ivC ∧ r.d0 = tab.ivD) ∧
      md5 tab msg = serialize (blocks.foldl (md5Block tab) r) ∧
      ∀ (q : Md5Regs) (b : Bytes), ∃ w : Md5Regs,
        w = (List.finRange 64).foldl (md5Step tab)
          { q with blk := b, m := blockWords b, a := q.a0, b := q.b0, c := q.c0, d := q.d0 } ∧
        (md5Block tab q b).a0 = q.a0 + w.a ∧ (md5Block tab q b).b0 = q.b0 + w.b ∧
        (md5Block tab q b).c0 = q.c0 + w.c ∧ (md5Block tab q b).d0 = q.d0 + w.d

/-- R80: the uppercase mapping, on every byte; on alphanumeric bytes its image is digits and uppercase letters. -/
def Obligations.UppercaseMapsLettersOnly : Prop :=
  ∀ c : Byte, (up c).toNat = (if 0x61 ≤ c.toNat ∧ c.toNat ≤ 0x7A then c.toNat - 0x20 else c.toNat) ∧
    (isAlphanumeric c = true → isDigit (up c) || isUpper (up c))

end
end

