-- ==== Sys2Proof/Laws/State.lean ====
section
/-! SUPPORT. The fields of a state after each of its named updates: one lemma per field per update. -/

namespace Sys2Proof.Machine

/-! ### `putOut` -/

@[simp] theorem State.putOut_con (s : State) (bs : Bytes) : (s.putOut bs).con = s.con := rfl
@[simp] theorem State.putOut_cmd (s : State) (bs : Bytes) : (s.putOut bs).cmd = s.cmd := rfl
@[simp] theorem State.putOut_ilen (s : State) (bs : Bytes) : (s.putOut bs).ilen = s.ilen := rfl
@[simp] theorem State.putOut_inp (s : State) (bs : Bytes) : (s.putOut bs).inp = s.inp := rfl
@[simp] theorem State.putOut_status (s : State) (bs : Bytes) : (s.putOut bs).status = s.status := rfl
@[simp] theorem State.putOut_olen (s : State) (bs : Bytes) : (s.putOut bs).olen = .of bs.length := rfl
@[simp] theorem State.putOut_out (s : State) (bs : Bytes) : (s.putOut bs).out = bs := rfl
@[simp] theorem State.putOut_vsel (s : State) (bs : Bytes) : (s.putOut bs).vsel = s.vsel := rfl
@[simp] theorem State.putOut_pat (s : State) (bs : Bytes) : (s.putOut bs).pat = s.pat := rfl
@[simp] theorem State.putOut_plen (s : State) (bs : Bytes) : (s.putOut bs).plen = s.plen := rfl
@[simp] theorem State.putOut_code (s : State) (bs : Bytes) : (s.putOut bs).code = s.code := rfl
@[simp] theorem State.putOut_clen (s : State) (bs : Bytes) : (s.putOut bs).clen = s.clen := rfl
@[simp] theorem State.putOut_kidx (s : State) (bs : Bytes) : (s.putOut bs).kidx = s.kidx := rfl
@[simp] theorem State.putOut_dig (s : State) (bs : Bytes) : (s.putOut bs).dig = s.dig := rfl
@[simp] theorem State.putOut_eb (s : State) (bs : Bytes) : (s.putOut bs).eb = s.eb := rfl
@[simp] theorem State.putOut_elen (s : State) (bs : Bytes) : (s.putOut bs).elen = s.elen := rfl
@[simp] theorem State.putOut_x (s : State) (bs : Bytes) : (s.putOut bs).x = s.x := rfl
@[simp] theorem State.putOut_u (s : State) (bs : Bytes) : (s.putOut bs).u = s.u := rfl
@[simp] theorem State.putOut_ulen (s : State) (bs : Bytes) : (s.putOut bs).ulen = s.ulen := rfl
@[simp] theorem State.putOut_uc (s : State) (bs : Bytes) : (s.putOut bs).uc = s.uc := rfl
@[simp] theorem State.putOut_rem (s : State) (bs : Bytes) : (s.putOut bs).rem = s.rem := rfl
@[simp] theorem State.putOut_tmp (s : State) (bs : Bytes) : (s.putOut bs).tmp = s.tmp := rfl
@[simp] theorem State.putOut_g (s : State) (bs : Bytes) : (s.putOut bs).g = s.g := rfl
@[simp] theorem State.putOut_eo (s : State) (bs : Bytes) : (s.putOut bs).eo = s.eo := rfl
@[simp] theorem State.putOut_eolen (s : State) (bs : Bytes) : (s.putOut bs).eolen = s.eolen := rfl
@[simp] theorem State.putOut_md5 (s : State) (bs : Bytes) : (s.putOut bs).md5 = s.md5 := rfl
@[simp] theorem State.putOut_ph (s : State) (bs : Bytes) : (s.putOut bs).ph = s.ph := rfl
@[simp] theorem State.putOut_encFromGen (s : State) (bs : Bytes) : (s.putOut bs).encFromGen = s.encFromGen := rfl
@[simp] theorem State.putOut_script (s : State) (bs : Bytes) : (s.putOut bs).script = s.script := rfl
@[simp] theorem State.putOut_taken (s : State) (bs : Bytes) : (s.putOut bs).taken = s.taken := rfl

/-! ### `putPat` -/

@[simp] theorem State.putPat_con (s : State) (bs : Bytes) : (s.putPat bs).con = s.con := rfl
@[simp] theorem State.putPat_cmd (s : State) (bs : Bytes) : (s.putPat bs).cmd = s.cmd := rfl
@[simp] theorem State.putPat_ilen (s : State) (bs : Bytes) : (s.putPat bs).ilen = s.ilen := rfl
@[simp] theorem State.putPat_inp (s : State) (bs : Bytes) : (s.putPat bs).inp = s.inp := rfl
@[simp] theorem State.putPat_status (s : State) (bs : Bytes) : (s.putPat bs).status = s.status := rfl
@[simp] theorem State.putPat_olen (s : State) (bs : Bytes) : (s.putPat bs).olen = s.olen := rfl
@[simp] theorem State.putPat_out (s : State) (bs : Bytes) : (s.putPat bs).out = s.out := rfl
@[simp] theorem State.putPat_vsel (s : State) (bs : Bytes) : (s.putPat bs).vsel = s.vsel := rfl
@[simp] theorem State.putPat_pat (s : State) (bs : Bytes) : (s.putPat bs).pat = bs := rfl
@[simp] theorem State.putPat_plen (s : State) (bs : Bytes) : (s.putPat bs).plen = .of bs.length := rfl
@[simp] theorem State.putPat_code (s : State) (bs : Bytes) : (s.putPat bs).code = s.code := rfl
@[simp] theorem State.putPat_clen (s : State) (bs : Bytes) : (s.putPat bs).clen = s.clen := rfl
@[simp] theorem State.putPat_kidx (s : State) (bs : Bytes) : (s.putPat bs).kidx = s.kidx := rfl
@[simp] theorem State.putPat_dig (s : State) (bs : Bytes) : (s.putPat bs).dig = s.dig := rfl
@[simp] theorem State.putPat_eb (s : State) (bs : Bytes) : (s.putPat bs).eb = s.eb := rfl
@[simp] theorem State.putPat_elen (s : State) (bs : Bytes) : (s.putPat bs).elen = s.elen := rfl
@[simp] theorem State.putPat_x (s : State) (bs : Bytes) : (s.putPat bs).x = s.x := rfl
@[simp] theorem State.putPat_u (s : State) (bs : Bytes) : (s.putPat bs).u = s.u := rfl
@[simp] theorem State.putPat_ulen (s : State) (bs : Bytes) : (s.putPat bs).ulen = s.ulen := rfl
@[simp] theorem State.putPat_uc (s : State) (bs : Bytes) : (s.putPat bs).uc = s.uc := rfl
@[simp] theorem State.putPat_rem (s : State) (bs : Bytes) : (s.putPat bs).rem = s.rem := rfl
@[simp] theorem State.putPat_tmp (s : State) (bs : Bytes) : (s.putPat bs).tmp = s.tmp := rfl
@[simp] theorem State.putPat_g (s : State) (bs : Bytes) : (s.putPat bs).g = s.g := rfl
@[simp] theorem State.putPat_eo (s : State) (bs : Bytes) : (s.putPat bs).eo = s.eo := rfl
@[simp] theorem State.putPat_eolen (s : State) (bs : Bytes) : (s.putPat bs).eolen = s.eolen := rfl
@[simp] theorem State.putPat_md5 (s : State) (bs : Bytes) : (s.putPat bs).md5 = s.md5 := rfl
@[simp] theorem State.putPat_ph (s : State) (bs : Bytes) : (s.putPat bs).ph = s.ph := rfl
@[simp] theorem State.putPat_encFromGen (s : State) (bs : Bytes) : (s.putPat bs).encFromGen = s.encFromGen := rfl
@[simp] theorem State.putPat_script (s : State) (bs : Bytes) : (s.putPat bs).script = s.script := rfl
@[simp] theorem State.putPat_taken (s : State) (bs : Bytes) : (s.putPat bs).taken = s.taken := rfl

/-! ### `putCode` -/

@[simp] theorem State.putCode_con (s : State) (bs : Bytes) : (s.putCode bs).con = s.con := rfl
@[simp] theorem State.putCode_cmd (s : State) (bs : Bytes) : (s.putCode bs).cmd = s.cmd := rfl
@[simp] theorem State.putCode_ilen (s : State) (bs : Bytes) : (s.putCode bs).ilen = s.ilen := rfl
@[simp] theorem State.putCode_inp (s : State) (bs : Bytes) : (s.putCode bs).inp = s.inp := rfl
@[simp] theorem State.putCode_status (s : State) (bs : Bytes) : (s.putCode bs).status = s.status := rfl
@[simp] theorem State.putCode_olen (s : State) (bs : Bytes) : (s.putCode bs).olen = s.olen := rfl
@[simp] theorem State.putCode_out (s : State) (bs : Bytes) : (s.putCode bs).out = s.out := rfl
@[simp] theorem State.putCode_vsel (s : State) (bs : Bytes) : (s.putCode bs).vsel = s.vsel := rfl
@[simp] theorem State.putCode_pat (s : State) (bs : Bytes) : (s.putCode bs).pat = s.pat := rfl
@[simp] theorem State.putCode_plen (s : State) (bs : Bytes) : (s.putCode bs).plen = s.plen := rfl
@[simp] theorem State.putCode_code (s : State) (bs : Bytes) : (s.putCode bs).code = bs := rfl
@[simp] theorem State.putCode_clen (s : State) (bs : Bytes) : (s.putCode bs).clen = .of bs.length := rfl
@[simp] theorem State.putCode_kidx (s : State) (bs : Bytes) : (s.putCode bs).kidx = s.kidx := rfl
@[simp] theorem State.putCode_dig (s : State) (bs : Bytes) : (s.putCode bs).dig = s.dig := rfl
@[simp] theorem State.putCode_eb (s : State) (bs : Bytes) : (s.putCode bs).eb = s.eb := rfl
@[simp] theorem State.putCode_elen (s : State) (bs : Bytes) : (s.putCode bs).elen = s.elen := rfl
@[simp] theorem State.putCode_x (s : State) (bs : Bytes) : (s.putCode bs).x = s.x := rfl
@[simp] theorem State.putCode_u (s : State) (bs : Bytes) : (s.putCode bs).u = s.u := rfl
@[simp] theorem State.putCode_ulen (s : State) (bs : Bytes) : (s.putCode bs).ulen = s.ulen := rfl
@[simp] theorem State.putCode_uc (s : State) (bs : Bytes) : (s.putCode bs).uc = s.uc := rfl
@[simp] theorem State.putCode_rem (s : State) (bs : Bytes) : (s.putCode bs).rem = s.rem := rfl
@[simp] theorem State.putCode_tmp (s : State) (bs : Bytes) : (s.putCode bs).tmp = s.tmp := rfl
@[simp] theorem State.putCode_g (s : State) (bs : Bytes) : (s.putCode bs).g = s.g := rfl
@[simp] theorem State.putCode_eo (s : State) (bs : Bytes) : (s.putCode bs).eo = s.eo := rfl
@[simp] theorem State.putCode_eolen (s : State) (bs : Bytes) : (s.putCode bs).eolen = s.eolen := rfl
@[simp] theorem State.putCode_md5 (s : State) (bs : Bytes) : (s.putCode bs).md5 = s.md5 := rfl
@[simp] theorem State.putCode_ph (s : State) (bs : Bytes) : (s.putCode bs).ph = s.ph := rfl
@[simp] theorem State.putCode_encFromGen (s : State) (bs : Bytes) : (s.putCode bs).encFromGen = s.encFromGen := rfl
@[simp] theorem State.putCode_script (s : State) (bs : Bytes) : (s.putCode bs).script = s.script := rfl
@[simp] theorem State.putCode_taken (s : State) (bs : Bytes) : (s.putCode bs).taken = s.taken := rfl

/-! ### `putEb` -/

@[simp] theorem State.putEb_con (s : State) (bs : Bytes) : (s.putEb bs).con = s.con := rfl
@[simp] theorem State.putEb_cmd (s : State) (bs : Bytes) : (s.putEb bs).cmd = s.cmd := rfl
@[simp] theorem State.putEb_ilen (s : State) (bs : Bytes) : (s.putEb bs).ilen = s.ilen := rfl
@[simp] theorem State.putEb_inp (s : State) (bs : Bytes) : (s.putEb bs).inp = s.inp := rfl
@[simp] theorem State.putEb_status (s : State) (bs : Bytes) : (s.putEb bs).status = s.status := rfl
@[simp] theorem State.putEb_olen (s : State) (bs : Bytes) : (s.putEb bs).olen = s.olen := rfl
@[simp] theorem State.putEb_out (s : State) (bs : Bytes) : (s.putEb bs).out = s.out := rfl
@[simp] theorem State.putEb_vsel (s : State) (bs : Bytes) : (s.putEb bs).vsel = s.vsel := rfl
@[simp] theorem State.putEb_pat (s : State) (bs : Bytes) : (s.putEb bs).pat = s.pat := rfl
@[simp] theorem State.putEb_plen (s : State) (bs : Bytes) : (s.putEb bs).plen = s.plen := rfl
@[simp] theorem State.putEb_code (s : State) (bs : Bytes) : (s.putEb bs).code = s.code := rfl
@[simp] theorem State.putEb_clen (s : State) (bs : Bytes) : (s.putEb bs).clen = s.clen := rfl
@[simp] theorem State.putEb_kidx (s : State) (bs : Bytes) : (s.putEb bs).kidx = s.kidx := rfl
@[simp] theorem State.putEb_dig (s : State) (bs : Bytes) : (s.putEb bs).dig = s.dig := rfl
@[simp] theorem State.putEb_eb (s : State) (bs : Bytes) : (s.putEb bs).eb = bs := rfl
@[simp] theorem State.putEb_elen (s : State) (bs : Bytes) : (s.putEb bs).elen = .of bs.length := rfl
@[simp] theorem State.putEb_x (s : State) (bs : Bytes) : (s.putEb bs).x = s.x := rfl
@[simp] theorem State.putEb_u (s : State) (bs : Bytes) : (s.putEb bs).u = s.u := rfl
@[simp] theorem State.putEb_ulen (s : State) (bs : Bytes) : (s.putEb bs).ulen = s.ulen := rfl
@[simp] theorem State.putEb_uc (s : State) (bs : Bytes) : (s.putEb bs).uc = s.uc := rfl
@[simp] theorem State.putEb_rem (s : State) (bs : Bytes) : (s.putEb bs).rem = s.rem := rfl
@[simp] theorem State.putEb_tmp (s : State) (bs : Bytes) : (s.putEb bs).tmp = s.tmp := rfl
@[simp] theorem State.putEb_g (s : State) (bs : Bytes) : (s.putEb bs).g = s.g := rfl
@[simp] theorem State.putEb_eo (s : State) (bs : Bytes) : (s.putEb bs).eo = s.eo := rfl
@[simp] theorem State.putEb_eolen (s : State) (bs : Bytes) : (s.putEb bs).eolen = s.eolen := rfl
@[simp] theorem State.putEb_md5 (s : State) (bs : Bytes) : (s.putEb bs).md5 = s.md5 := rfl
@[simp] theorem State.putEb_ph (s : State) (bs : Bytes) : (s.putEb bs).ph = s.ph := rfl
@[simp] theorem State.putEb_encFromGen (s : State) (bs : Bytes) : (s.putEb bs).encFromGen = s.encFromGen := rfl
@[simp] theorem State.putEb_script (s : State) (bs : Bytes) : (s.putEb bs).script = s.script := rfl
@[simp] theorem State.putEb_taken (s : State) (bs : Bytes) : (s.putEb bs).taken = s.taken := rfl

/-! ### `putX` -/

@[simp] theorem State.putX_con (s : State) (bs : Bytes) : (s.putX bs).con = s.con := rfl
@[simp] theorem State.putX_cmd (s : State) (bs : Bytes) : (s.putX bs).cmd = s.cmd := rfl
@[simp] theorem State.putX_ilen (s : State) (bs : Bytes) : (s.putX bs).ilen = s.ilen := rfl
@[simp] theorem State.putX_inp (s : State) (bs : Bytes) : (s.putX bs).inp = s.inp := rfl
@[simp] theorem State.putX_status (s : State) (bs : Bytes) : (s.putX bs).status = s.status := rfl
@[simp] theorem State.putX_olen (s : State) (bs : Bytes) : (s.putX bs).olen = s.olen := rfl
@[simp] theorem State.putX_out (s : State) (bs : Bytes) : (s.putX bs).out = s.out := rfl
@[simp] theorem State.putX_vsel (s : State) (bs : Bytes) : (s.putX bs).vsel = s.vsel := rfl
@[simp] theorem State.putX_pat (s : State) (bs : Bytes) : (s.putX bs).pat = s.pat := rfl
@[simp] theorem State.putX_plen (s : State) (bs : Bytes) : (s.putX bs).plen = s.plen := rfl
@[simp] theorem State.putX_code (s : State) (bs : Bytes) : (s.putX bs).code = s.code := rfl
@[simp] theorem State.putX_clen (s : State) (bs : Bytes) : (s.putX bs).clen = s.clen := rfl
@[simp] theorem State.putX_kidx (s : State) (bs : Bytes) : (s.putX bs).kidx = s.kidx := rfl
@[simp] theorem State.putX_dig (s : State) (bs : Bytes) : (s.putX bs).dig = s.dig := rfl
@[simp] theorem State.putX_eb (s : State) (bs : Bytes) : (s.putX bs).eb = s.eb := rfl
@[simp] theorem State.putX_elen (s : State) (bs : Bytes) : (s.putX bs).elen = s.elen := rfl
@[simp] theorem State.putX_x (s : State) (bs : Bytes) : (s.putX bs).x = .of bs := rfl
@[simp] theorem State.putX_u (s : State) (bs : Bytes) : (s.putX bs).u = s.u := rfl
@[simp] theorem State.putX_ulen (s : State) (bs : Bytes) : (s.putX bs).ulen = s.ulen := rfl
@[simp] theorem State.putX_uc (s : State) (bs : Bytes) : (s.putX bs).uc = s.uc := rfl
@[simp] theorem State.putX_rem (s : State) (bs : Bytes) : (s.putX bs).rem = s.rem := rfl
@[simp] theorem State.putX_tmp (s : State) (bs : Bytes) : (s.putX bs).tmp = s.tmp := rfl
@[simp] theorem State.putX_g (s : State) (bs : Bytes) : (s.putX bs).g = s.g := rfl
@[simp] theorem State.putX_eo (s : State) (bs : Bytes) : (s.putX bs).eo = s.eo := rfl
@[simp] theorem State.putX_eolen (s : State) (bs : Bytes) : (s.putX bs).eolen = s.eolen := rfl
@[simp] theorem State.putX_md5 (s : State) (bs : Bytes) : (s.putX bs).md5 = s.md5 := rfl
@[simp] theorem State.putX_ph (s : State) (bs : Bytes) : (s.putX bs).ph = s.ph := rfl
@[simp] theorem State.putX_encFromGen (s : State) (bs : Bytes) : (s.putX bs).encFromGen = s.encFromGen := rfl
@[simp] theorem State.putX_script (s : State) (bs : Bytes) : (s.putX bs).script = s.script := rfl
@[simp] theorem State.putX_taken (s : State) (bs : Bytes) : (s.putX bs).taken = s.taken := rfl

/-! ### `putU` -/

@[simp] theorem State.putU_con (s : State) (bs : Bytes) : (s.putU bs).con = s.con := rfl
@[simp] theorem State.putU_cmd (s : State) (bs : Bytes) : (s.putU bs).cmd = s.cmd := rfl
@[simp] theorem State.putU_ilen (s : State) (bs : Bytes) : (s.putU bs).ilen = s.ilen := rfl
@[simp] theorem State.putU_inp (s : State) (bs : Bytes) : (s.putU bs).inp = s.inp := rfl
@[simp] theorem State.putU_status (s : State) (bs : Bytes) : (s.putU bs).status = s.status := rfl
@[simp] theorem State.putU_olen (s : State) (bs : Bytes) : (s.putU bs).olen = s.olen := rfl
@[simp] theorem State.putU_out (s : State) (bs : Bytes) : (s.putU bs).out = s.out := rfl
@[simp] theorem State.putU_vsel (s : State) (bs : Bytes) : (s.putU bs).vsel = s.vsel := rfl
@[simp] theorem State.putU_pat (s : State) (bs : Bytes) : (s.putU bs).pat = s.pat := rfl
@[simp] theorem State.putU_plen (s : State) (bs : Bytes) : (s.putU bs).plen = s.plen := rfl
@[simp] theorem State.putU_code (s : State) (bs : Bytes) : (s.putU bs).code = s.code := rfl
@[simp] theorem State.putU_clen (s : State) (bs : Bytes) : (s.putU bs).clen = s.clen := rfl
@[simp] theorem State.putU_kidx (s : State) (bs : Bytes) : (s.putU bs).kidx = s.kidx := rfl
@[simp] theorem State.putU_dig (s : State) (bs : Bytes) : (s.putU bs).dig = s.dig := rfl
@[simp] theorem State.putU_eb (s : State) (bs : Bytes) : (s.putU bs).eb = s.eb := rfl
@[simp] theorem State.putU_elen (s : State) (bs : Bytes) : (s.putU bs).elen = s.elen := rfl
@[simp] theorem State.putU_x (s : State) (bs : Bytes) : (s.putU bs).x = s.x := rfl
@[simp] theorem State.putU_u (s : State) (bs : Bytes) : (s.putU bs).u = bs := rfl
@[simp] theorem State.putU_ulen (s : State) (bs : Bytes) : (s.putU bs).ulen = .of bs.length := rfl
@[simp] theorem State.putU_uc (s : State) (bs : Bytes) : (s.putU bs).uc = s.uc := rfl
@[simp] theorem State.putU_rem (s : State) (bs : Bytes) : (s.putU bs).rem = s.rem := rfl
@[simp] theorem State.putU_tmp (s : State) (bs : Bytes) : (s.putU bs).tmp = s.tmp := rfl
@[simp] theorem State.putU_g (s : State) (bs : Bytes) : (s.putU bs).g = s.g := rfl
@[simp] theorem State.putU_eo (s : State) (bs : Bytes) : (s.putU bs).eo = s.eo := rfl
@[simp] theorem State.putU_eolen (s : State) (bs : Bytes) : (s.putU bs).eolen = s.eolen := rfl
@[simp] theorem State.putU_md5 (s : State) (bs : Bytes) : (s.putU bs).md5 = s.md5 := rfl
@[simp] theorem State.putU_ph (s : State) (bs : Bytes) : (s.putU bs).ph = s.ph := rfl
@[simp] theorem State.putU_encFromGen (s : State) (bs : Bytes) : (s.putU bs).encFromGen = s.encFromGen := rfl
@[simp] theorem State.putU_script (s : State) (bs : Bytes) : (s.putU bs).script = s.script := rfl
@[simp] theorem State.putU_taken (s : State) (bs : Bytes) : (s.putU bs).taken = s.taken := rfl

/-! ### `putEo` -/

@[simp] theorem State.putEo_con (s : State) (bs : Bytes) : (s.putEo bs).con = s.con := rfl
@[simp] theorem State.putEo_cmd (s : State) (bs : Bytes) : (s.putEo bs).cmd = s.cmd := rfl
@[simp] theorem State.putEo_ilen (s : State) (bs : Bytes) : (s.putEo bs).ilen = s.ilen := rfl
@[simp] theorem State.putEo_inp (s : State) (bs : Bytes) : (s.putEo bs).inp = s.inp := rfl
@[simp] theorem State.putEo_status (s : State) (bs : Bytes) : (s.putEo bs).status = s.status := rfl
@[simp] theorem State.putEo_olen (s : State) (bs : Bytes) : (s.putEo bs).olen = s.olen := rfl
@[simp] theorem State.putEo_out (s : State) (bs : Bytes) : (s.putEo bs).out = s.out := rfl
@[simp] theorem State.putEo_vsel (s : State) (bs : Bytes) : (s.putEo bs).vsel = s.vsel := rfl
@[simp] theorem State.putEo_pat (s : State) (bs : Bytes) : (s.putEo bs).pat = s.pat := rfl
@[simp] theorem State.putEo_plen (s : State) (bs : Bytes) : (s.putEo bs).plen = s.plen := rfl
@[simp] theorem State.putEo_code (s : State) (bs : Bytes) : (s.putEo bs).code = s.code := rfl
@[simp] theorem State.putEo_clen (s : State) (bs : Bytes) : (s.putEo bs).clen = s.clen := rfl
@[simp] theorem State.putEo_kidx (s : State) (bs : Bytes) : (s.putEo bs).kidx = s.kidx := rfl
@[simp] theorem State.putEo_dig (s : State) (bs : Bytes) : (s.putEo bs).dig = s.dig := rfl
@[simp] theorem State.putEo_eb (s : State) (bs : Bytes) : (s.putEo bs).eb = s.eb := rfl
@[simp] theorem State.putEo_elen (s : State) (bs : Bytes) : (s.putEo bs).elen = s.elen := rfl
@[simp] theorem State.putEo_x (s : State) (bs : Bytes) : (s.putEo bs).x = s.x := rfl
@[simp] theorem State.putEo_u (s : State) (bs : Bytes) : (s.putEo bs).u = s.u := rfl
@[simp] theorem State.putEo_ulen (s : State) (bs : Bytes) : (s.putEo bs).ulen = s.ulen := rfl
@[simp] theorem State.putEo_uc (s : State) (bs : Bytes) : (s.putEo bs).uc = s.uc := rfl
@[simp] theorem State.putEo_rem (s : State) (bs : Bytes) : (s.putEo bs).rem = s.rem := rfl
@[simp] theorem State.putEo_tmp (s : State) (bs : Bytes) : (s.putEo bs).tmp = s.tmp := rfl
@[simp] theorem State.putEo_g (s : State) (bs : Bytes) : (s.putEo bs).g = s.g := rfl
@[simp] theorem State.putEo_eo (s : State) (bs : Bytes) : (s.putEo bs).eo = bs := rfl
@[simp] theorem State.putEo_eolen (s : State) (bs : Bytes) : (s.putEo bs).eolen = .of bs.length := rfl
@[simp] theorem State.putEo_md5 (s : State) (bs : Bytes) : (s.putEo bs).md5 = s.md5 := rfl
@[simp] theorem State.putEo_ph (s : State) (bs : Bytes) : (s.putEo bs).ph = s.ph := rfl
@[simp] theorem State.putEo_encFromGen (s : State) (bs : Bytes) : (s.putEo bs).encFromGen = s.encFromGen := rfl
@[simp] theorem State.putEo_script (s : State) (bs : Bytes) : (s.putEo bs).script = s.script := rfl
@[simp] theorem State.putEo_taken (s : State) (bs : Bytes) : (s.putEo bs).taken = s.taken := rfl

/-! ### `finish` -/

@[simp] theorem State.finish_con (s : State) (c : Byte) : (s.finish c).con = s.con := rfl
@[simp] theorem State.finish_cmd (s : State) (c : Byte) : (s.finish c).cmd = s.cmd := rfl
@[simp] theorem State.finish_ilen (s : State) (c : Byte) : (s.finish c).ilen = s.ilen := rfl
@[simp] theorem State.finish_inp (s : State) (c : Byte) : (s.finish c).inp = s.inp := rfl
@[simp] theorem State.finish_status (s : State) (c : Byte) : (s.finish c).status = .of c := rfl
@[simp] theorem State.finish_olen (s : State) (c : Byte) : (s.finish c).olen = s.olen := rfl
@[simp] theorem State.finish_out (s : State) (c : Byte) : (s.finish c).out = s.out := rfl
@[simp] theorem State.finish_vsel (s : State) (c : Byte) : (s.finish c).vsel = s.vsel := rfl
@[simp] theorem State.finish_pat (s : State) (c : Byte) : (s.finish c).pat = s.pat := rfl
@[simp] theorem State.finish_plen (s : State) (c : Byte) : (s.finish c).plen = s.plen := rfl
@[simp] theorem State.finish_code (s : State) (c : Byte) : (s.finish c).code = s.code := rfl
@[simp] theorem State.finish_clen (s : State) (c : Byte) : (s.finish c).clen = s.clen := rfl
@[simp] theorem State.finish_kidx (s : State) (c : Byte) : (s.finish c).kidx = s.kidx := rfl
@[simp] theorem State.finish_dig (s : State) (c : Byte) : (s.finish c).dig = s.dig := rfl
@[simp] theorem State.finish_eb (s : State) (c : Byte) : (s.finish c).eb = s.eb := rfl
@[simp] theorem State.finish_elen (s : State) (c : Byte) : (s.finish c).elen = s.elen := rfl
@[simp] theorem State.finish_x (s : State) (c : Byte) : (s.finish c).x = s.x := rfl
@[simp] theorem State.finish_u (s : State) (c : Byte) : (s.finish c).u = s.u := rfl
@[simp] theorem State.finish_ulen (s : State) (c : Byte) : (s.finish c).ulen = s.ulen := rfl
@[simp] theorem State.finish_uc (s : State) (c : Byte) : (s.finish c).uc = s.uc := rfl
@[simp] theorem State.finish_rem (s : State) (c : Byte) : (s.finish c).rem = s.rem := rfl
@[simp] theorem State.finish_tmp (s : State) (c : Byte) : (s.finish c).tmp = s.tmp := rfl
@[simp] theorem State.finish_g (s : State) (c : Byte) : (s.finish c).g = s.g := rfl
@[simp] theorem State.finish_eo (s : State) (c : Byte) : (s.finish c).eo = s.eo := rfl
@[simp] theorem State.finish_eolen (s : State) (c : Byte) : (s.finish c).eolen = s.eolen := rfl
@[simp] theorem State.finish_md5 (s : State) (c : Byte) : (s.finish c).md5 = s.md5 := rfl
@[simp] theorem State.finish_ph (s : State) (c : Byte) : (s.finish c).ph = .done := rfl
@[simp] theorem State.finish_encFromGen (s : State) (c : Byte) : (s.finish c).encFromGen = s.encFromGen := rfl
@[simp] theorem State.finish_script (s : State) (c : Byte) : (s.finish c).script = s.script := rfl
@[simp] theorem State.finish_taken (s : State) (c : Byte) : (s.finish c).taken = s.taken := rfl

/-! ### `select` -/

@[simp] theorem State.select_con (s : State) (v : BitVec 1) : (s.select v).con = s.con := rfl
@[simp] theorem State.select_cmd (s : State) (v : BitVec 1) : (s.select v).cmd = s.cmd := rfl
@[simp] theorem State.select_ilen (s : State) (v : BitVec 1) : (s.select v).ilen = s.ilen := rfl
@[simp] theorem State.select_inp (s : State) (v : BitVec 1) : (s.select v).inp = s.inp := rfl
@[simp] theorem State.select_status (s : State) (v : BitVec 1) : (s.select v).status = s.status := rfl
@[simp] theorem State.select_olen (s : State) (v : BitVec 1) : (s.select v).olen = s.olen := rfl
@[simp] theorem State.select_out (s : State) (v : BitVec 1) : (s.select v).out = s.out := rfl
@[simp] theorem State.select_vsel (s : State) (v : BitVec 1) : (s.select v).vsel = .of v := rfl
@[simp] theorem State.select_pat (s : State) (v : BitVec 1) : (s.select v).pat = s.pat := rfl
@[simp] theorem State.select_plen (s : State) (v : BitVec 1) : (s.select v).plen = s.plen := rfl
@[simp] theorem State.select_code (s : State) (v : BitVec 1) : (s.select v).code = s.code := rfl
@[simp] theorem State.select_clen (s : State) (v : BitVec 1) : (s.select v).clen = s.clen := rfl
@[simp] theorem State.select_kidx (s : State) (v : BitVec 1) : (s.select v).kidx = s.kidx := rfl
@[simp] theorem State.select_dig (s : State) (v : BitVec 1) : (s.select v).dig = s.dig := rfl
@[simp] theorem State.select_eb (s : State) (v : BitVec 1) : (s.select v).eb = s.eb := rfl
@[simp] theorem State.select_elen (s : State) (v : BitVec 1) : (s.select v).elen = s.elen := rfl
@[simp] theorem State.select_x (s : State) (v : BitVec 1) : (s.select v).x = s.x := rfl
@[simp] theorem State.select_u (s : State) (v : BitVec 1) : (s.select v).u = s.u := rfl
@[simp] theorem State.select_ulen (s : State) (v : BitVec 1) : (s.select v).ulen = s.ulen := rfl
@[simp] theorem State.select_uc (s : State) (v : BitVec 1) : (s.select v).uc = s.uc := rfl
@[simp] theorem State.select_rem (s : State) (v : BitVec 1) : (s.select v).rem = s.rem := rfl
@[simp] theorem State.select_tmp (s : State) (v : BitVec 1) : (s.select v).tmp = s.tmp := rfl
@[simp] theorem State.select_g (s : State) (v : BitVec 1) : (s.select v).g = s.g := rfl
@[simp] theorem State.select_eo (s : State) (v : BitVec 1) : (s.select v).eo = s.eo := rfl
@[simp] theorem State.select_eolen (s : State) (v : BitVec 1) : (s.select v).eolen = s.eolen := rfl
@[simp] theorem State.select_md5 (s : State) (v : BitVec 1) : (s.select v).md5 = s.md5 := rfl
@[simp] theorem State.select_ph (s : State) (v : BitVec 1) : (s.select v).ph = s.ph := rfl
@[simp] theorem State.select_encFromGen (s : State) (v : BitVec 1) : (s.select v).encFromGen = s.encFromGen := rfl
@[simp] theorem State.select_script (s : State) (v : BitVec 1) : (s.select v).script = s.script := rfl
@[simp] theorem State.select_taken (s : State) (v : BitVec 1) : (s.select v).taken = s.taken := rfl

/-! ### `setKidx` -/

@[simp] theorem State.setKidx_con (s : State) (k : Nat) : (s.setKidx k).con = s.con := rfl
@[simp] theorem State.setKidx_cmd (s : State) (k : Nat) : (s.setKidx k).cmd = s.cmd := rfl
@[simp] theorem State.setKidx_ilen (s : State) (k : Nat) : (s.setKidx k).ilen = s.ilen := rfl
@[simp] theorem State.setKidx_inp (s : State) (k : Nat) : (s.setKidx k).inp = s.inp := rfl
@[simp] theorem State.setKidx_status (s : State) (k : Nat) : (s.setKidx k).status = s.status := rfl
@[simp] theorem State.setKidx_olen (s : State) (k : Nat) : (s.setKidx k).olen = s.olen := rfl
@[simp] theorem State.setKidx_out (s : State) (k : Nat) : (s.setKidx k).out = s.out := rfl
@[simp] theorem State.setKidx_vsel (s : State) (k : Nat) : (s.setKidx k).vsel = s.vsel := rfl
@[simp] theorem State.setKidx_pat (s : State) (k : Nat) : (s.setKidx k).pat = s.pat := rfl
@[simp] theorem State.setKidx_plen (s : State) (k : Nat) : (s.setKidx k).plen = s.plen := rfl
@[simp] theorem State.setKidx_code (s : State) (k : Nat) : (s.setKidx k).code = s.code := rfl
@[simp] theorem State.setKidx_clen (s : State) (k : Nat) : (s.setKidx k).clen = s.clen := rfl
@[simp] theorem State.setKidx_kidx (s : State) (k : Nat) : (s.setKidx k).kidx = .of k := rfl
@[simp] theorem State.setKidx_dig (s : State) (k : Nat) : (s.setKidx k).dig = s.dig := rfl
@[simp] theorem State.setKidx_eb (s : State) (k : Nat) : (s.setKidx k).eb = s.eb := rfl
@[simp] theorem State.setKidx_elen (s : State) (k : Nat) : (s.setKidx k).elen = s.elen := rfl
@[simp] theorem State.setKidx_x (s : State) (k : Nat) : (s.setKidx k).x = s.x := rfl
@[simp] theorem State.setKidx_u (s : State) (k : Nat) : (s.setKidx k).u = s.u := rfl
@[simp] theorem State.setKidx_ulen (s : State) (k : Nat) : (s.setKidx k).ulen = s.ulen := rfl
@[simp] theorem State.setKidx_uc (s : State) (k : Nat) : (s.setKidx k).uc = s.uc := rfl
@[simp] theorem State.setKidx_rem (s : State) (k : Nat) : (s.setKidx k).rem = s.rem := rfl
@[simp] theorem State.setKidx_tmp (s : State) (k : Nat) : (s.setKidx k).tmp = s.tmp := rfl
@[simp] theorem State.setKidx_g (s : State) (k : Nat) : (s.setKidx k).g = s.g := rfl
@[simp] theorem State.setKidx_eo (s : State) (k : Nat) : (s.setKidx k).eo = s.eo := rfl
@[simp] theorem State.setKidx_eolen (s : State) (k : Nat) : (s.setKidx k).eolen = s.eolen := rfl
@[simp] theorem State.setKidx_md5 (s : State) (k : Nat) : (s.setKidx k).md5 = s.md5 := rfl
@[simp] theorem State.setKidx_ph (s : State) (k : Nat) : (s.setKidx k).ph = s.ph := rfl
@[simp] theorem State.setKidx_encFromGen (s : State) (k : Nat) : (s.setKidx k).encFromGen = s.encFromGen := rfl
@[simp] theorem State.setKidx_script (s : State) (k : Nat) : (s.setKidx k).script = s.script := rfl
@[simp] theorem State.setKidx_taken (s : State) (k : Nat) : (s.setKidx k).taken = s.taken := rfl

/-! ### `setCursor` -/

@[simp] theorem State.setCursor_con (s : State) (c r : Nat) : (s.setCursor c r).con = s.con := rfl
@[simp] theorem State.setCursor_cmd (s : State) (c r : Nat) : (s.setCursor c r).cmd = s.cmd := rfl
@[simp] theorem State.setCursor_ilen (s : State) (c r : Nat) : (s.setCursor c r).ilen = s.ilen := rfl
@[simp] theorem State.setCursor_inp (s : State) (c r : Nat) : (s.setCursor c r).inp = s.inp := rfl
@[simp] theorem State.setCursor_status (s : State) (c r : Nat) : (s.setCursor c r).status = s.status := rfl
@[simp] theorem State.setCursor_olen (s : State) (c r : Nat) : (s.setCursor c r).olen = s.olen := rfl
@[simp] theorem State.setCursor_out (s : State) (c r : Nat) : (s.setCursor c r).out = s.out := rfl
@[simp] theorem State.setCursor_vsel (s : State) (c r : Nat) : (s.setCursor c r).vsel = s.vsel := rfl
@[simp] theorem State.setCursor_pat (s : State) (c r : Nat) : (s.setCursor c r).pat = s.pat := rfl
@[simp] theorem State.setCursor_plen (s : State) (c r : Nat) : (s.setCursor c r).plen = s.plen := rfl
@[simp] theorem State.setCursor_code (s : State) (c r : Nat) : (s.setCursor c r).code = s.code := rfl
@[simp] theorem State.setCursor_clen (s : State) (c r : Nat) : (s.setCursor c r).clen = s.clen := rfl
@[simp] theorem State.setCursor_kidx (s : State) (c r : Nat) : (s.setCursor c r).kidx = s.kidx := rfl
@[simp] theorem State.setCursor_dig (s : State) (c r : Nat) : (s.setCursor c r).dig = s.dig := rfl
@[simp] theorem State.setCursor_eb (s : State) (c r : Nat) : (s.setCursor c r).eb = s.eb := rfl
@[simp] theorem State.setCursor_elen (s : State) (c r : Nat) : (s.setCursor c r).elen = s.elen := rfl
@[simp] theorem State.setCursor_x (s : State) (c r : Nat) : (s.setCursor c r).x = s.x := rfl
@[simp] theorem State.setCursor_u (s : State) (c r : Nat) : (s.setCursor c r).u = s.u := rfl
@[simp] theorem State.setCursor_ulen (s : State) (c r : Nat) : (s.setCursor c r).ulen = s.ulen := rfl
@[simp] theorem State.setCursor_uc (s : State) (c r : Nat) : (s.setCursor c r).uc = .of c := rfl
@[simp] theorem State.setCursor_rem (s : State) (c r : Nat) : (s.setCursor c r).rem = .of (BitVec.ofNat 4 r) := rfl
@[simp] theorem State.setCursor_tmp (s : State) (c r : Nat) : (s.setCursor c r).tmp = s.tmp := rfl
@[simp] theorem State.setCursor_g (s : State) (c r : Nat) : (s.setCursor c r).g = s.g := rfl
@[simp] theorem State.setCursor_eo (s : State) (c r : Nat) : (s.setCursor c r).eo = s.eo := rfl
@[simp] theorem State.setCursor_eolen (s : State) (c r : Nat) : (s.setCursor c r).eolen = s.eolen := rfl
@[simp] theorem State.setCursor_md5 (s : State) (c r : Nat) : (s.setCursor c r).md5 = s.md5 := rfl
@[simp] theorem State.setCursor_ph (s : State) (c r : Nat) : (s.setCursor c r).ph = s.ph := rfl
@[simp] theorem State.setCursor_encFromGen (s : State) (c r : Nat) : (s.setCursor c r).encFromGen = s.encFromGen := rfl
@[simp] theorem State.setCursor_script (s : State) (c r : Nat) : (s.setCursor c r).script = s.script := rfl
@[simp] theorem State.setCursor_taken (s : State) (c r : Nat) : (s.setCursor c r).taken = s.taken := rfl

/-! ### `setDigest` -/

@[simp] theorem State.setDigest_con (s : State) (bs : Bytes) (r : Md5Regs) : (s.setDigest bs r).con = s.con := rfl
@[simp] theorem State.setDigest_cmd (s : State) (bs : Bytes) (r : Md5Regs) : (s.setDigest bs r).cmd = s.cmd := rfl
@[simp] theorem State.setDigest_ilen (s : State) (bs : Bytes) (r : Md5Regs) : (s.setDigest bs r).ilen = s.ilen := rfl
@[simp] theorem State.setDigest_inp (s : State) (bs : Bytes) (r : Md5Regs) : (s.setDigest bs r).inp = s.inp := rfl
@[simp] theorem State.setDigest_status (s : State) (bs : Bytes) (r : Md5Regs) : (s.setDigest bs r).status = s.status := rfl
@[simp] theorem State.setDigest_olen (s : State) (bs : Bytes) (r : Md5Regs) : (s.setDigest bs r).olen = s.olen := rfl
@[simp] theorem State.setDigest_out (s : State) (bs : Bytes) (r : Md5Regs) : (s.setDigest bs r).out = s.out := rfl
@[simp] theorem State.setDigest_vsel (s : State) (bs : Bytes) (r : Md5Regs) : (s.setDigest bs r).vsel = s.vsel := rfl
@[simp] theorem State.setDigest_pat (s : State) (bs : Bytes) (r : Md5Regs) : (s.setDigest bs r).pat = s.pat := rfl
@[simp] theorem State.setDigest_plen (s : State) (bs : Bytes) (r : Md5Regs) : (s.setDigest bs r).plen = s.plen := rfl
@[simp] theorem State.setDigest_code (s : State) (bs : Bytes) (r : Md5Regs) : (s.setDigest bs r).code = s.code := rfl
@[simp] theorem State.setDigest_clen (s : State) (bs : Bytes) (r : Md5Regs) : (s.setDigest bs r).clen = s.clen := rfl
@[simp] theorem State.setDigest_kidx (s : State) (bs : Bytes) (r : Md5Regs) : (s.setDigest bs r).kidx = s.kidx := rfl
@[simp] theorem State.setDigest_dig (s : State) (bs : Bytes) (r : Md5Regs) : (s.setDigest bs r).dig = .of bs := rfl
@[simp] theorem State.setDigest_eb (s : State) (bs : Bytes) (r : Md5Regs) : (s.setDigest bs r).eb = s.eb := rfl
@[simp] theorem State.setDigest_elen (s : State) (bs : Bytes) (r : Md5Regs) : (s.setDigest bs r).elen = s.elen := rfl
@[simp] theorem State.setDigest_x (s : State) (bs : Bytes) (r : Md5Regs) : (s.setDigest bs r).x = s.x := rfl
@[simp] theorem State.setDigest_u (s : State) (bs : Bytes) (r : Md5Regs) : (s.setDigest bs r).u = s.u := rfl
@[simp] theorem State.setDigest_ulen (s : State) (bs : Bytes) (r : Md5Regs) : (s.setDigest bs r).ulen = s.ulen := rfl
@[simp] theorem State.setDigest_uc (s : State) (bs : Bytes) (r : Md5Regs) : (s.setDigest bs r).uc = s.uc := rfl
@[simp] theorem State.setDigest_rem (s : State) (bs : Bytes) (r : Md5Regs) : (s.setDigest bs r).rem = s.rem := rfl
@[simp] theorem State.setDigest_tmp (s : State) (bs : Bytes) (r : Md5Regs) : (s.setDigest bs r).tmp = s.tmp := rfl
@[simp] theorem State.setDigest_g (s : State) (bs : Bytes) (r : Md5Regs) : (s.setDigest bs r).g = s.g := rfl
@[simp] theorem State.setDigest_eo (s : State) (bs : Bytes) (r : Md5Regs) : (s.setDigest bs r).eo = s.eo := rfl
@[simp] theorem State.setDigest_eolen (s : State) (bs : Bytes) (r : Md5Regs) : (s.setDigest bs r).eolen = s.eolen := rfl
@[simp] theorem State.setDigest_md5 (s : State) (bs : Bytes) (r : Md5Regs) : (s.setDigest bs r).md5 = .of r := rfl
@[simp] theorem State.setDigest_ph (s : State) (bs : Bytes) (r : Md5Regs) : (s.setDigest bs r).ph = s.ph := rfl
@[simp] theorem State.setDigest_encFromGen (s : State) (bs : Bytes) (r : Md5Regs) : (s.setDigest bs r).encFromGen = s.encFromGen := rfl
@[simp] theorem State.setDigest_script (s : State) (bs : Bytes) (r : Md5Regs) : (s.setDigest bs r).script = s.script := rfl
@[simp] theorem State.setDigest_taken (s : State) (bs : Bytes) (r : Md5Regs) : (s.setDigest bs r).taken = s.taken := rfl

/-! ### `setGroup` -/

@[simp] theorem State.setGroup_con (s : State) (w : Word) (v : BitVec 5) : (s.setGroup w v).con = s.con := rfl
@[simp] theorem State.setGroup_cmd (s : State) (w : Word) (v : BitVec 5) : (s.setGroup w v).cmd = s.cmd := rfl
@[simp] theorem State.setGroup_ilen (s : State) (w : Word) (v : BitVec 5) : (s.setGroup w v).ilen = s.ilen := rfl
@[simp] theorem State.setGroup_inp (s : State) (w : Word) (v : BitVec 5) : (s.setGroup w v).inp = s.inp := rfl
@[simp] theorem State.setGroup_status (s : State) (w : Word) (v : BitVec 5) : (s.setGroup w v).status = s.status := rfl
@[simp] theorem State.setGroup_olen (s : State) (w : Word) (v : BitVec 5) : (s.setGroup w v).olen = s.olen := rfl
@[simp] theorem State.setGroup_out (s : State) (w : Word) (v : BitVec 5) : (s.setGroup w v).out = s.out := rfl
@[simp] theorem State.setGroup_vsel (s : State) (w : Word) (v : BitVec 5) : (s.setGroup w v).vsel = s.vsel := rfl
@[simp] theorem State.setGroup_pat (s : State) (w : Word) (v : BitVec 5) : (s.setGroup w v).pat = s.pat := rfl
@[simp] theorem State.setGroup_plen (s : State) (w : Word) (v : BitVec 5) : (s.setGroup w v).plen = s.plen := rfl
@[simp] theorem State.setGroup_code (s : State) (w : Word) (v : BitVec 5) : (s.setGroup w v).code = s.code := rfl
@[simp] theorem State.setGroup_clen (s : State) (w : Word) (v : BitVec 5) : (s.setGroup w v).clen = s.clen := rfl
@[simp] theorem State.setGroup_kidx (s : State) (w : Word) (v : BitVec 5) : (s.setGroup w v).kidx = s.kidx := rfl
@[simp] theorem State.setGroup_dig (s : State) (w : Word) (v : BitVec 5) : (s.setGroup w v).dig = s.dig := rfl
@[simp] theorem State.setGroup_eb (s : State) (w : Word) (v : BitVec 5) : (s.setGroup w v).eb = s.eb := rfl
@[simp] theorem State.setGroup_elen (s : State) (w : Word) (v : BitVec 5) : (s.setGroup w v).elen = s.elen := rfl
@[simp] theorem State.setGroup_x (s : State) (w : Word) (v : BitVec 5) : (s.setGroup w v).x = s.x := rfl
@[simp] theorem State.setGroup_u (s : State) (w : Word) (v : BitVec 5) : (s.setGroup w v).u = s.u := rfl
@[simp] theorem State.setGroup_ulen (s : State) (w : Word) (v : BitVec 5) : (s.setGroup w v).ulen = s.ulen := rfl
@[simp] theorem State.setGroup_uc (s : State) (w : Word) (v : BitVec 5) : (s.setGroup w v).uc = s.uc := rfl
@[simp] theorem State.setGroup_rem (s : State) (w : Word) (v : BitVec 5) : (s.setGroup w v).rem = s.rem := rfl
@[simp] theorem State.setGroup_tmp (s : State) (w : Word) (v : BitVec 5) : (s.setGroup w v).tmp = .of w := rfl
@[simp] theorem State.setGroup_g (s : State) (w : Word) (v : BitVec 5) : (s.setGroup w v).g = .of v := rfl
@[simp] theorem State.setGroup_eo (s : State) (w : Word) (v : BitVec 5) : (s.setGroup w v).eo = s.eo := rfl
@[simp] theorem State.setGroup_eolen (s : State) (w : Word) (v : BitVec 5) : (s.setGroup w v).eolen = s.eolen := rfl
@[simp] theorem State.setGroup_md5 (s : State) (w : Word) (v : BitVec 5) : (s.setGroup w v).md5 = s.md5 := rfl
@[simp] theorem State.setGroup_ph (s : State) (w : Word) (v : BitVec 5) : (s.setGroup w v).ph = s.ph := rfl
@[simp] theorem State.setGroup_encFromGen (s : State) (w : Word) (v : BitVec 5) :
    (s.setGroup w v).encFromGen = s.encFromGen := rfl
@[simp] theorem State.setGroup_script (s : State) (w : Word) (v : BitVec 5) : (s.setGroup w v).script = s.script := rfl
@[simp] theorem State.setGroup_taken (s : State) (w : Word) (v : BitVec 5) : (s.setGroup w v).taken = s.taken := rfl

/-! ### `enteredFromGen` -/

@[simp] theorem State.enteredFromGen_con (s : State) (b : Bool) : (s.enteredFromGen b).con = s.con := rfl
@[simp] theorem State.enteredFromGen_cmd (s : State) (b : Bool) : (s.enteredFromGen b).cmd = s.cmd := rfl
@[simp] theorem State.enteredFromGen_ilen (s : State) (b : Bool) : (s.enteredFromGen b).ilen = s.ilen := rfl
@[simp] theorem State.enteredFromGen_inp (s : State) (b : Bool) : (s.enteredFromGen b).inp = s.inp := rfl
@[simp] theorem State.enteredFromGen_status (s : State) (b : Bool) : (s.enteredFromGen b).status = s.status := rfl
@[simp] theorem State.enteredFromGen_olen (s : State) (b : Bool) : (s.enteredFromGen b).olen = s.olen := rfl
@[simp] theorem State.enteredFromGen_out (s : State) (b : Bool) : (s.enteredFromGen b).out = s.out := rfl
@[simp] theorem State.enteredFromGen_vsel (s : State) (b : Bool) : (s.enteredFromGen b).vsel = s.vsel := rfl
@[simp] theorem State.enteredFromGen_pat (s : State) (b : Bool) : (s.enteredFromGen b).pat = s.pat := rfl
@[simp] theorem State.enteredFromGen_plen (s : State) (b : Bool) : (s.enteredFromGen b).plen = s.plen := rfl
@[simp] theorem State.enteredFromGen_code (s : State) (b : Bool) : (s.enteredFromGen b).code = s.code := rfl
@[simp] theorem State.enteredFromGen_clen (s : State) (b : Bool) : (s.enteredFromGen b).clen = s.clen := rfl
@[simp] theorem State.enteredFromGen_kidx (s : State) (b : Bool) : (s.enteredFromGen b).kidx = s.kidx := rfl
@[simp] theorem State.enteredFromGen_dig (s : State) (b : Bool) : (s.enteredFromGen b).dig = s.dig := rfl
@[simp] theorem State.enteredFromGen_eb (s : State) (b : Bool) : (s.enteredFromGen b).eb = s.eb := rfl
@[simp] theorem State.enteredFromGen_elen (s : State) (b : Bool) : (s.enteredFromGen b).elen = s.elen := rfl
@[simp] theorem State.enteredFromGen_x (s : State) (b : Bool) : (s.enteredFromGen b).x = s.x := rfl
@[simp] theorem State.enteredFromGen_u (s : State) (b : Bool) : (s.enteredFromGen b).u = s.u := rfl
@[simp] theorem State.enteredFromGen_ulen (s : State) (b : Bool) : (s.enteredFromGen b).ulen = s.ulen := rfl
@[simp] theorem State.enteredFromGen_uc (s : State) (b : Bool) : (s.enteredFromGen b).uc = s.uc := rfl
@[simp] theorem State.enteredFromGen_rem (s : State) (b : Bool) : (s.enteredFromGen b).rem = s.rem := rfl
@[simp] theorem State.enteredFromGen_tmp (s : State) (b : Bool) : (s.enteredFromGen b).tmp = s.tmp := rfl
@[simp] theorem State.enteredFromGen_g (s : State) (b : Bool) : (s.enteredFromGen b).g = s.g := rfl
@[simp] theorem State.enteredFromGen_eo (s : State) (b : Bool) : (s.enteredFromGen b).eo = s.eo := rfl
@[simp] theorem State.enteredFromGen_eolen (s : State) (b : Bool) : (s.enteredFromGen b).eolen = s.eolen := rfl
@[simp] theorem State.enteredFromGen_md5 (s : State) (b : Bool) : (s.enteredFromGen b).md5 = s.md5 := rfl
@[simp] theorem State.enteredFromGen_ph (s : State) (b : Bool) : (s.enteredFromGen b).ph = s.ph := rfl
@[simp] theorem State.enteredFromGen_encFromGen (s : State) (b : Bool) : (s.enteredFromGen b).encFromGen = .of b := rfl
@[simp] theorem State.enteredFromGen_script (s : State) (b : Bool) : (s.enteredFromGen b).script = s.script := rfl
@[simp] theorem State.enteredFromGen_taken (s : State) (b : Bool) : (s.enteredFromGen b).taken = s.taken := rfl

/-! ### `goTo` -/

@[simp] theorem State.goTo_con (s : State) (p : Phase) : (s.goTo p).con = s.con := rfl
@[simp] theorem State.goTo_cmd (s : State) (p : Phase) : (s.goTo p).cmd = s.cmd := rfl
@[simp] theorem State.goTo_ilen (s : State) (p : Phase) : (s.goTo p).ilen = s.ilen := rfl
@[simp] theorem State.goTo_inp (s : State) (p : Phase) : (s.goTo p).inp = s.inp := rfl
@[simp] theorem State.goTo_status (s : State) (p : Phase) : (s.goTo p).status = s.status := rfl
@[simp] theorem State.goTo_olen (s : State) (p : Phase) : (s.goTo p).olen = s.olen := rfl
@[simp] theorem State.goTo_out (s : State) (p : Phase) : (s.goTo p).out = s.out := rfl
@[simp] theorem State.goTo_vsel (s : State) (p : Phase) : (s.goTo p).vsel = s.vsel := rfl
@[simp] theorem State.goTo_pat (s : State) (p : Phase) : (s.goTo p).pat = s.pat := rfl
@[simp] theorem State.goTo_plen (s : State) (p : Phase) : (s.goTo p).plen = s.plen := rfl
@[simp] theorem State.goTo_code (s : State) (p : Phase) : (s.goTo p).code = s.code := rfl
@[simp] theorem State.goTo_clen (s : State) (p : Phase) : (s.goTo p).clen = s.clen := rfl
@[simp] theorem State.goTo_kidx (s : State) (p : Phase) : (s.goTo p).kidx = s.kidx := rfl
@[simp] theorem State.goTo_dig (s : State) (p : Phase) : (s.goTo p).dig = s.dig := rfl
@[simp] theorem State.goTo_eb (s : State) (p : Phase) : (s.goTo p).eb = s.eb := rfl
@[simp] theorem State.goTo_elen (s : State) (p : Phase) : (s.goTo p).elen = s.elen := rfl
@[simp] theorem State.goTo_x (s : State) (p : Phase) : (s.goTo p).x = s.x := rfl
@[simp] theorem State.goTo_u (s : State) (p : Phase) : (s.goTo p).u = s.u := rfl
@[simp] theorem State.goTo_ulen (s : State) (p : Phase) : (s.goTo p).ulen = s.ulen := rfl
@[simp] theorem State.goTo_uc (s : State) (p : Phase) : (s.goTo p).uc = s.uc := rfl
@[simp] theorem State.goTo_rem (s : State) (p : Phase) : (s.goTo p).rem = s.rem := rfl
@[simp] theorem State.goTo_tmp (s : State) (p : Phase) : (s.goTo p).tmp = s.tmp := rfl
@[simp] theorem State.goTo_g (s : State) (p : Phase) : (s.goTo p).g = s.g := rfl
@[simp] theorem State.goTo_eo (s : State) (p : Phase) : (s.goTo p).eo = s.eo := rfl
@[simp] theorem State.goTo_eolen (s : State) (p : Phase) : (s.goTo p).eolen = s.eolen := rfl
@[simp] theorem State.goTo_md5 (s : State) (p : Phase) : (s.goTo p).md5 = s.md5 := rfl
@[simp] theorem State.goTo_ph (s : State) (p : Phase) : (s.goTo p).ph = p := rfl
@[simp] theorem State.goTo_encFromGen (s : State) (p : Phase) : (s.goTo p).encFromGen = s.encFromGen := rfl
@[simp] theorem State.goTo_script (s : State) (p : Phase) : (s.goTo p).script = s.script := rfl
@[simp] theorem State.goTo_taken (s : State) (p : Phase) : (s.goTo p).taken = s.taken := rfl

/-! ### `present` -/

@[simp] theorem present_con (t : Transaction) (s : State) : (present t s).con = s.con := rfl
@[simp] theorem present_cmd (t : Transaction) (s : State) : (present t s).cmd = .of t.cmd := rfl
@[simp] theorem present_ilen (t : Transaction) (s : State) : (present t s).ilen = .of t.ilen := rfl
@[simp] theorem present_inp (t : Transaction) (s : State) : (present t s).inp = t.payload := rfl
@[simp] theorem present_status (t : Transaction) (s : State) : (present t s).status = s.status := rfl
@[simp] theorem present_olen (t : Transaction) (s : State) : (present t s).olen = s.olen := rfl
@[simp] theorem present_out (t : Transaction) (s : State) : (present t s).out = s.out := rfl
@[simp] theorem present_vsel (t : Transaction) (s : State) : (present t s).vsel = s.vsel := rfl
@[simp] theorem present_pat (t : Transaction) (s : State) : (present t s).pat = s.pat := rfl
@[simp] theorem present_plen (t : Transaction) (s : State) : (present t s).plen = s.plen := rfl
@[simp] theorem present_code (t : Transaction) (s : State) : (present t s).code = s.code := rfl
@[simp] theorem present_clen (t : Transaction) (s : State) : (present t s).clen = s.clen := rfl
@[simp] theorem present_kidx (t : Transaction) (s : State) : (present t s).kidx = s.kidx := rfl
@[simp] theorem present_dig (t : Transaction) (s : State) : (present t s).dig = s.dig := rfl
@[simp] theorem present_eb (t : Transaction) (s : State) : (present t s).eb = s.eb := rfl
@[simp] theorem present_elen (t : Transaction) (s : State) : (present t s).elen = s.elen := rfl
@[simp] theorem present_x (t : Transaction) (s : State) : (present t s).x = s.x := rfl
@[simp] theorem present_u (t : Transaction) (s : State) : (present t s).u = s.u := rfl
@[simp] theorem present_ulen (t : Transaction) (s : State) : (present t s).ulen = s.ulen := rfl
@[simp] theorem present_uc (t : Transaction) (s : State) : (present t s).uc = s.uc := rfl
@[simp] theorem present_rem (t : Transaction) (s : State) : (present t s).rem = s.rem := rfl
@[simp] theorem present_tmp (t : Transaction) (s : State) : (present t s).tmp = s.tmp := rfl
@[simp] theorem present_g (t : Transaction) (s : State) : (present t s).g = s.g := rfl
@[simp] theorem present_eo (t : Transaction) (s : State) : (present t s).eo = s.eo := rfl
@[simp] theorem present_eolen (t : Transaction) (s : State) : (present t s).eolen = s.eolen := rfl
@[simp] theorem present_md5 (t : Transaction) (s : State) : (present t s).md5 = s.md5 := rfl
@[simp] theorem present_ph (t : Transaction) (s : State) : (present t s).ph = s.ph := rfl
@[simp] theorem present_encFromGen (t : Transaction) (s : State) : (present t s).encFromGen = s.encFromGen := rfl
@[simp] theorem present_script (t : Transaction) (s : State) : (present t s).script = s.script := rfl
@[simp] theorem present_taken (t : Transaction) (s : State) : (present t s).taken = s.taken := rfl

/-! ### `raiseError` -/

@[simp] theorem raiseError_con (e : ErrorKind) (s : State) : (raiseError e s).con = s.con := rfl
@[simp] theorem raiseError_cmd (e : ErrorKind) (s : State) : (raiseError e s).cmd = s.cmd := rfl
@[simp] theorem raiseError_ilen (e : ErrorKind) (s : State) : (raiseError e s).ilen = s.ilen := rfl
@[simp] theorem raiseError_inp (e : ErrorKind) (s : State) : (raiseError e s).inp = s.inp := rfl
@[simp] theorem raiseError_status (e : ErrorKind) (s : State) : (raiseError e s).status = .of e.code := rfl
@[simp] theorem raiseError_olen (e : ErrorKind) (s : State) : (raiseError e s).olen = .of 0 := rfl
@[simp] theorem raiseError_out (e : ErrorKind) (s : State) : (raiseError e s).out = [] := rfl
@[simp] theorem raiseError_vsel (e : ErrorKind) (s : State) : (raiseError e s).vsel = s.vsel := rfl
@[simp] theorem raiseError_pat (e : ErrorKind) (s : State) : (raiseError e s).pat = s.pat := rfl
@[simp] theorem raiseError_plen (e : ErrorKind) (s : State) : (raiseError e s).plen = s.plen := rfl
@[simp] theorem raiseError_code (e : ErrorKind) (s : State) : (raiseError e s).code = s.code := rfl
@[simp] theorem raiseError_clen (e : ErrorKind) (s : State) : (raiseError e s).clen = s.clen := rfl
@[simp] theorem raiseError_kidx (e : ErrorKind) (s : State) : (raiseError e s).kidx = s.kidx := rfl
@[simp] theorem raiseError_dig (e : ErrorKind) (s : State) : (raiseError e s).dig = s.dig := rfl
@[simp] theorem raiseError_eb (e : ErrorKind) (s : State) : (raiseError e s).eb = s.eb := rfl
@[simp] theorem raiseError_elen (e : ErrorKind) (s : State) : (raiseError e s).elen = s.elen := rfl
@[simp] theorem raiseError_x (e : ErrorKind) (s : State) : (raiseError e s).x = s.x := rfl
@[simp] theorem raiseError_u (e : ErrorKind) (s : State) : (raiseError e s).u = s.u := rfl
@[simp] theorem raiseError_ulen (e : ErrorKind) (s : State) : (raiseError e s).ulen = s.ulen := rfl
@[simp] theorem raiseError_uc (e : ErrorKind) (s : State) : (raiseError e s).uc = s.uc := rfl
@[simp] theorem raiseError_rem (e : ErrorKind) (s : State) : (raiseError e s).rem = s.rem := rfl
@[simp] theorem raiseError_tmp (e : ErrorKind) (s : State) : (raiseError e s).tmp = s.tmp := rfl
@[simp] theorem raiseError_g (e : ErrorKind) (s : State) : (raiseError e s).g = s.g := rfl
@[simp] theorem raiseError_eo (e : ErrorKind) (s : State) : (raiseError e s).eo = s.eo := rfl
@[simp] theorem raiseError_eolen (e : ErrorKind) (s : State) : (raiseError e s).eolen = s.eolen := rfl
@[simp] theorem raiseError_md5 (e : ErrorKind) (s : State) : (raiseError e s).md5 = s.md5 := rfl
@[simp] theorem raiseError_ph (e : ErrorKind) (s : State) : (raiseError e s).ph = .done := rfl
@[simp] theorem raiseError_encFromGen (e : ErrorKind) (s : State) : (raiseError e s).encFromGen = s.encFromGen := rfl
@[simp] theorem raiseError_script (e : ErrorKind) (s : State) : (raiseError e s).script = s.script := rfl
@[simp] theorem raiseError_taken (e : ErrorKind) (s : State) : (raiseError e s).taken = s.taken := rfl

end Sys2Proof.Machine
end

