-- ==== Sys2Proof/Laws/Ops.lean ====
section
/-! SUPPORT. Once for each shared operation, everything it can do: space reads, writes of a buffer with its
length, the response and its taking; and that every memory operation keeps the canonical form. -/

namespace Sys2Proof.Machine

/-! ### The error monad -/

@[simp] theorem ok_bind {ε α β : Type} (a : α) (f : α → Except ε β) : (Except.ok a >>= f) = f a := rfl

@[simp] theorem error_bind {ε α β : Type} (e : ε) (f : α → Except ε β) : (Except.error e >>= f) = .error e := rfl

@[simp] theorem pure_eq_ok {ε α : Type} (a : α) : (pure a : Except ε α) = .ok a := rfl

/-- A sequence answers only if its first part does, and then as its second part does. -/
theorem bind_eq_ok {ε α β : Type} {x : Except ε α} {f : α → Except ε β} {b : β} :
    (x >>= f) = .ok b ↔ ∃ a, x = .ok a ∧ f a = .ok b := by
  cases x <;> simp

/-! ### Spaces -/

/-- A single read answers exactly with the element at its index. -/
theorem memRead_eq_ok {s : State} {sp : Space} {i : Nat} {v : Byte} :
    memRead s sp i = .ok v ↔ (s.space sp)[i]? = some v := by
  unfold memRead
  split <;> simp_all

/-- A range read answers exactly when the range lies in the space, and with its elements. -/
theorem memReadRange_eq_ok {s : State} {sp : Space} {n : Nat} {bs : Bytes} :
    memReadRange s sp n = .ok bs ↔ n ≤ (s.space sp).length ∧ bs = (s.space sp).take n := by
  unfold memReadRange
  split <;> simp_all [eq_comm]

/-- A range read of a whole space. -/
theorem memReadRange_all {s : State} {sp : Space} {n : Nat} (h : n = (s.space sp).length) :
    memReadRange s sp n = .ok (s.space sp) := by
  subst h
  simp [memReadRange]

/-- `EO` grows by the symbol appended, and nothing else changes but its length register. -/
theorem appendEo_eq_ok {s t : State} {v : Byte} :
    appendEo s v = .ok t ↔
      s.eolen.value ≤ s.eo.length ∧ t = s.putEo (s.eo.take s.eolen.value ++ [v]) := by
  simp [appendEo, bind_eq_ok, memReadRange_eq_ok, State.space, and_assoc, eq_comm (a := t)]

/-- A response is what `STATUS`, `OLEN` and the first `OLEN` bytes of `OUT` hold. -/
theorem response_eq_ok {s : State} {r : Response} :
    response s = .ok r ↔
      s.olen.value ≤ s.out.length ∧
        r = { status := s.status.value, olen := s.olen.value, out := s.out.take s.olen.value } := by
  simp [response, bind_eq_ok, memReadRange_eq_ok, State.space, and_assoc, eq_comm (a := r)]

/-- Taking a response appends it and goes to `IDLE`; nothing else changes. -/
theorem takeResponse_eq_ok {s t : State} :
    takeResponse s = .ok t ↔ ∃ r, response s = .ok r ∧ t = { s with ph := .idle, taken := s.taken ++ [r] } := by
  simp only [takeResponse, bind_eq_ok, pure_eq_ok, Except.ok.injEq]
  constructor
  · rintro ⟨r, hr, rfl⟩
    exact ⟨r, hr, rfl⟩
  · rintro ⟨r, hr, rfl⟩
    exact ⟨r, hr, rfl⟩

/-- A micro-operation's answer is a next state exactly when it is no fault. -/
theorem toOutcome_eq_next {r : Except Fault State} {t : State} : toOutcome r = .next t ↔ r = .ok t := by
  cases r <;> simp [toOutcome]

theorem toOutcome_ne_refused {r : Except Fault State} {x : Refusal} : toOutcome r ≠ .refused x := by
  cases r <;> simp [toOutcome]

/-! ### The canonical form of memory -/

/-- What the canonical form says of each space. -/
theorem memory_wf {s : State} :
    Memory.wf s = true ↔
      s.olen.value = s.out.length ∧ s.plen.value = s.pat.length ∧ s.clen.value = s.code.length ∧
        s.elen.value = s.eb.length ∧ s.ulen.value = s.u.length ∧ s.eolen.value = s.eo.length ∧
        s.dig.value.length = 16 ∧ s.md5.value.blk.length = 64 := by
  simp [Memory.wf, bufferWf, and_assoc]

theorem putOut_wf {s : State} (bs : Bytes) (h : Memory.wf s = true) : Memory.wf (s.putOut bs) = true := by
  simp_all [memory_wf]

theorem putPat_wf {s : State} (bs : Bytes) (h : Memory.wf s = true) : Memory.wf (s.putPat bs) = true := by
  simp_all [memory_wf]

theorem putCode_wf {s : State} (bs : Bytes) (h : Memory.wf s = true) : Memory.wf (s.putCode bs) = true := by
  simp_all [memory_wf]

theorem putEb_wf {s : State} (bs : Bytes) (h : Memory.wf s = true) : Memory.wf (s.putEb bs) = true := by
  simp_all [memory_wf]

theorem putX_wf {s : State} (bs : Bytes) (h : Memory.wf s = true) : Memory.wf (s.putX bs) = true := h

theorem setDigest_wf {s : State} {bs : Bytes} {r : Md5Regs} (h : Memory.wf s = true) (hd : bs.length = 16)
    (hb : r.blk.length = 64) : Memory.wf (s.setDigest bs r) = true := by
  simp_all [memory_wf]

theorem putU_wf {s : State} (bs : Bytes) (h : Memory.wf s = true) : Memory.wf (s.putU bs) = true := by
  simp_all [memory_wf]

theorem putEo_wf {s : State} (bs : Bytes) (h : Memory.wf s = true) : Memory.wf (s.putEo bs) = true := by
  simp_all [memory_wf]

theorem appendEo_wf {s t : State} {v : Byte} (h : Memory.wf s = true) (ht : appendEo s v = .ok t) :
    Memory.wf t = true := by
  obtain ⟨-, rfl⟩ := appendEo_eq_ok.1 ht
  exact putEo_wf _ h

theorem present_wf {s : State} (t : Transaction) (h : Memory.wf s = true) : Memory.wf (present t s) = true := h

theorem raiseError_wf {s : State} (e : ErrorKind) (h : Memory.wf s = true) : Memory.wf (raiseError e s) = true := by
  have h' := putOut_wf (s := s) [] h
  exact h'

theorem takeResponse_wf {s t : State} (h : Memory.wf s = true) (ht : takeResponse s = .ok t) : Memory.wf t = true := by
  obtain ⟨r, -, rfl⟩ := takeResponse_eq_ok.1 ht
  exact h

@[simp] theorem unwrittenCells_length (r : RegName) (n : Nat) : (unwrittenCells r n).length = n := by
  simp [unwrittenCells]

theorem reset_wf : Memory.wf State.reset = true := by
  simp [memory_wf, State.reset, Md5Regs.unwritten]

end Sys2Proof.Machine
end

