-- ==== Sys2Proof/Laws/Operands.lean ====
section
/-! SUPPORT. The data encodings: lengths, the digits of a byte found again, the cursor's advance, the groups. -/

namespace Sys2Proof.Machine

@[simp] theorem hexText_length (h : Vector Byte 32) (bs : Bytes) : (hexText h bs).length = 2 * bs.length := by
  induction bs with
  | nil => rfl
  | cons b bs ih => simp [hexText, ih]; omega

@[simp] theorem unitCells_length (bs : Bytes) : (unitCells bs).length = 2 * bs.length := by
  induction bs with
  | nil => rfl
  | cons b bs ih => simp [unitCells, ih]; omega

@[simp] theorem encText_length (fr : FinalRaw) (t : Vector Byte 32) (bs : Bytes) :
    (encText fr t bs).length = symbolCount bs.length := by
  simp [encText]

/-- The digit of a 4-bit value is found in `H` at that value (R82). -/
theorem indexFrom_hexDigit : ∀ n : BitVec 4, indexFrom (hexDigit digits n) 0 digits.toList = some n.toNat := by decide

theorem hexDigit_mem : ∀ n : BitVec 4, hexDigit digits n ∈ digitCodes.take 16 := by decide

/-- Every byte of a hex text is one of the sixteen digits (R81, R84). -/
theorem hexText_mem {bs : Bytes} : ∀ c ∈ hexText digits bs, c ∈ digitCodes.take 16 := by
  induction bs with
  | nil => simp [hexText]
  | cons b bs ih =>
    intro c hc
    simp only [hexText, List.mem_cons] at hc
    obtain rfl | rfl | hc := hc
    · exact hexDigit_mem _
    · exact hexDigit_mem _
    · exact ih c hc

theorem indexFrom_digit : ∀ c ∈ digitCodes.take 16, ∃ i, indexFrom c 0 digits.toList = some i ∧ i ≤ 15 := by
  simp only [digitCodes, List.take, List.mem_cons, List.not_mem_nil, or_false]
  rintro c (rfl | rfl | rfl | rfl | rfl | rfl | rfl | rfl | rfl | rfl | rfl | rfl | rfl | rfl | rfl | rfl) <;>
    exact ⟨_, rfl, by decide⟩

/-- The units of a text of hex digits exist, one per digit, each in 0..15 (R82, R102). -/
theorem unitValues_digits {cs : Bytes} (h : ∀ c ∈ cs, c ∈ digitCodes.take 16) :
    ∃ us, unitValues digits cs = .ok us ∧ us.length = cs.length ∧ ∀ u ∈ us, u.toNat ≤ 15 := by
  induction cs with
  | nil => exact ⟨[], rfl, rfl, by simp⟩
  | cons c cs ih =>
    obtain ⟨us, hus, hlen, hle⟩ := ih fun d hd => h d (List.mem_cons_of_mem _ hd)
    obtain ⟨i, hi, hi15⟩ := indexFrom_digit c (h c List.mem_cons_self)
    refine ⟨BitVec.ofNat 8 i :: us, by simp [unitValues, hi, hus], by simp [hlen], ?_⟩
    intro u hu
    obtain rfl | hu := List.mem_cons.1 hu
    · simp; omega
    · exact hle u hu

/-- Every answer of the lookup has one cell per character. -/
theorem unitValues_length {h : Vector Byte 32} {cs us : Bytes} (hu : unitValues h cs = .ok us) :
    us.length = cs.length := by
  induction cs generalizing us with
  | nil => cases hu; rfl
  | cons c cs ih =>
    simp only [unitValues] at hu
    split at hu
    · obtain ⟨vs, hvs, hu⟩ := bind_eq_ok.1 hu
      cases hu
      simp [ih hvs]
    · cases hu

/-- The while loop of ENC.ADV is division with remainder by 4 (R108). -/
theorem drain_eq (fuel rem uc : Nat) (h : rem ≤ fuel) : drain fuel rem uc = (rem % 4, uc + rem / 4) := by
  induction fuel generalizing rem uc with
  | zero =>
    obtain rfl : rem = 0 := by omega
    simp [drain]
  | succ fuel ih =>
    unfold drain
    split
    · rw [ih _ _ (by omega)]
      congr 1 <;> omega
    · congr 1 <;> omega

/-- `REM` is readable exactly in 0..3. -/
theorem readRem_eq_ok {s : State} {r : Nat} :
    readRem s = .ok r ↔ s.rem.value.toNat ≤ 3 ∧ r = s.rem.value.toNat := by
  unfold readRem
  split <;> simp_all [eq_comm]

end Sys2Proof.Machine
end

