-- ==== Sys2Proof/Laws/Encoder.lean ====
section
/-! SUPPORT. Once for each micro-operation of the Encoder, everything it can do: if it answers a state, that state is given
in full. -/

namespace Sys2Proof.Machine

theorem encEntry_eq_ok {s t : State} :
    encEntry s = .ok t ↔
      s.ilen.value ≤ s.inp.length ∧ t = (s.putEb (s.inp.take s.ilen.value)).enteredFromGen false := by
  simp [encEntry, bind_eq_ok, memReadRange_eq_ok, State.space, and_assoc, eq_comm (a := t)]

theorem encHex_eq_ok {s t : State} :
    encHex s = .ok t ↔
      s.elen.value ≤ s.eb.length ∧ t = s.putX (hexText s.con.h (s.eb.take s.elen.value)) := by
  simp [encHex, bind_eq_ok, memReadRange_eq_ok, State.space, and_assoc, eq_comm (a := t)]

theorem encUnits_eq_ok {s t : State} :
    encUnits s = .ok t ↔
      2 * s.elen.value ≤ s.x.value.length ∧
        ∃ us, unitValues s.con.h (s.x.value.take (2 * s.elen.value)) = .ok us ∧ t = s.putU us := by
  simp [encUnits, bind_eq_ok, memReadRange_eq_ok, State.space, and_assoc, eq_comm (a := t)]

theorem encPair_eq_ok {s t : State} :
    encPair s = .ok t ↔
      s.rem.value.toNat ≤ 3 ∧ ∃ u0 u1 : Byte, s.u[s.uc.value]? = some u0 ∧ s.u[s.uc.value + 1]? = some u1 ∧
        t = s.setGroup (pairWindow u0 u1) (pairGroup (pairWindow u0 u1) s.rem.value.toNat) := by
  simp [encPair, bind_eq_ok, readRem_eq_ok, memRead_eq_ok, State.space, and_assoc, eq_comm (a := t)]

theorem encFinal_eq_ok {fr : FinalRaw} {s t : State} :
    encFinal fr s = .ok t ↔
      ∃ u : Byte, s.u[s.uc.value]? = some u ∧
        t = s.setGroup ((fr (u.setWidth 4) s.rem.value.toNat).setWidth 32)
          (finalGroup ((fr (u.setWidth 4) s.rem.value.toNat).setWidth 32)) := by
  simp [encFinal, bind_eq_ok, memRead_eq_ok, State.space, eq_comm (a := t)]

theorem encSym_eq_ok {s t : State} :
    encSym s = .ok t ↔
      s.eolen.value ≤ s.eo.length ∧ t = s.putEo (s.eo.take s.eolen.value ++ [symbol s.con.t s.g.value]) :=
  appendEo_eq_ok

/-- The cursor after the advance (R108). -/
theorem encAdv_eq (s : State) :
    encAdv s = s.setCursor (s.uc.value + (s.rem.value.toNat + 5) / 4) ((s.rem.value.toNat + 5) % 4) := by
  simp [encAdv, drain_eq _ _ _ (Nat.le_refl _)]

/-- An iteration is a group, its symbol and the advance. -/
theorem encIteration_eq_ok {fr : FinalRaw} {s t : State} :
    encIteration fr s = .ok t ↔ ∃ s1 s2, encExtract fr s = .ok s1 ∧ encSym s1 = .ok s2 ∧ t = encAdv s2 := by
  simp [encIteration, bind_eq_ok, eq_comm (a := t)]

theorem encExit_eq_ok {s t : State} :
    encExit s = .ok t ↔
      s.eolen.value ≤ s.eo.length ∧ t = (s.putOut (s.eo.take s.eolen.value)).finish statusOk := by
  simp [encExit, bind_eq_ok, memReadRange_eq_ok, State.space, and_assoc, eq_comm (a := t)]

end Sys2Proof.Machine
end

