-- ==== Sys2Proof/Laws/EncoderLoop.lean ====
section
/-! SUPPORT. What `Encode` does as a whole: each iteration of its loop appends the symbol of the closed form, and the loop
ends with all of them (40_encoder.md R104 to R111). -/

namespace Sys2Proof.Machine

/-- Unit `i` of an input: it exists, its four bits are stream bits `4i .. 4i+3`, and a unit of odd index is a low
nibble (R53, R54). -/
theorem unitCells_get {bs : Bytes} {i : Nat} (h : i < 2 * bs.length) :
    ∃ u, (unitCells bs)[i]? = some u ∧
      (∀ b, u.getLsbD b = if b < 4 then streamBit bs (4 * i + (3 - b)) else false) ∧
      (i % 2 = 1 → u.setWidth 4 = (bs.getD (i / 2) 0).extractLsb' 0 4) := by
  induction bs generalizing i with
  | nil => simp at h
  | cons c bs ih =>
    match i with
    | 0 =>
      refine ⟨_, rfl, fun b => ?_, by simp⟩
      by_cases hb : b < 4
      · interval_cases b <;> simp [streamBit, BitVec.getMsbD]
      · simp [hb]
    | 1 =>
      refine ⟨_, rfl, fun b => ?_, by simp⟩
      by_cases hb : b < 4
      · interval_cases b <;> simp [streamBit, BitVec.getMsbD]
      · simp [hb]
    | i + 2 =>
      obtain ⟨u, hu, hbit, hw⟩ := ih (i := i) (by simp at h; omega)
      refine ⟨u, hu, fun b => ?_, fun hi => ?_⟩
      · have hdiv : (4 * (i + 2) + (3 - b)) / 8 = (4 * i + (3 - b)) / 8 + 1 := by omega
        have hmod : (4 * (i + 2) + (3 - b)) % 8 = (4 * i + (3 - b)) % 8 := by omega
        rw [hbit]
        simp [streamBit, hdiv, hmod]
      · have hdiv : (i + 2) / 2 = i / 2 + 1 := by omega
        simp [hdiv, hw (by omega)]

/-- The five bits ENC.PAIR takes are stream bits `5j .. 5j+4` (R54, R105). -/
theorem pairGroup_stream {bs : Bytes} {i r j : Nat} {u0 u1 : Byte} (hr : r ≤ 3) (hj : 5 * j = 4 * i + r)
    (h0 : ∀ b, u0.getLsbD b = if b < 4 then streamBit bs (4 * i + (3 - b)) else false)
    (h1 : ∀ b, u1.getLsbD b = if b < 4 then streamBit bs (4 * (i + 1) + (3 - b)) else false) :
    pairGroup (pairWindow u0 u1) r = streamGroup bs j := by
  have hi : 4 * (i + 1) = 4 * i + 4 := by omega
  apply BitVec.eq_of_getLsbD_eq
  intro k hk
  simp only [pairGroup, pairWindow, streamGroup, hj, BitVec.getLsbD_extractLsb', BitVec.getLsbD_ushiftRight,
    BitVec.getLsbD_or, BitVec.getLsbD_shiftLeft, BitVec.getLsbD_setWidth, BitVec.getLsbD_append, h0, h1, hi]
  interval_cases r <;> interval_cases k <;> simp

/-- The state before iteration `j` of the loop on the input `bs` (R36, R107). -/
def loopAt (fr : FinalRaw) (s : State) (bs : Bytes) (j : Nat) (tmp : Reg Word) (g : Reg (BitVec 5)) : State :=
  { s with
    u := unitCells bs, ulen := .of (2 * bs.length)
    uc := .of (5 * j / 4), rem := .of (BitVec.ofNat 4 (5 * j % 4)), tmp := tmp, g := g
    eo := (List.range j).map fun j => symbol s.con.t (encGroup fr bs j), eolen := .of j }

theorem remAt_toNat (j : Nat) : (BitVec.ofNat 4 (5 * j % 4)).toNat = 5 * j % 4 := by
  simp only [BitVec.toNat_ofNat]
  omega

/-- Iteration `j` takes the group of the closed form. -/
theorem encExtract_loopAt (fr : FinalRaw) (s : State) (bs : Bytes) (j : Nat) (tmp : Reg Word) (g : Reg (BitVec 5))
    (hj : j < symbolCount bs.length) :
    ∃ tmp', encExtract fr (loopAt fr s bs j tmp g) = .ok (loopAt fr s bs j tmp' (.of (encGroup fr bs j))) := by
  have hlt : 5 * j < 8 * bs.length := by unfold symbolCount at hj; omega
  have hmod := remAt_toNat j
  by_cases hc : 5 * j / 4 + 1 < 2 * bs.length
  · obtain ⟨u0, hu0, hb0, -⟩ := unitCells_get (bs := bs) (i := 5 * j / 4) (by omega)
    obtain ⟨u1, hu1, hb1, -⟩ := unitCells_get (bs := bs) (i := 5 * j / 4 + 1) hc
    have hg : encGroup fr bs j = streamGroup bs j := if_pos (by omega)
    refine ⟨.of (pairWindow u0 u1), (if_pos hc).trans (encPair_eq_ok.2 ⟨by simp only [loopAt]; omega, u0, u1, hu0, hu1, ?_⟩)⟩
    simp only [loopAt, hmod, pairGroup_stream (j := j) (show 5 * j % 4 ≤ 3 by omega) (by omega) hb0 hb1, hg]
    rfl
  · obtain ⟨u, hu, -, hw⟩ := unitCells_get (bs := bs) (i := 5 * j / 4) (by omega)
    have hg : encGroup fr bs j = finalGroup ((fr (lastUnit bs) (5 * j % 4)).setWidth 32) := if_neg (by omega)
    have hl : lastUnit bs = (bs.getD (5 * j / 4 / 2) 0).extractLsb' 0 4 := by
      unfold lastUnit
      congr 2
      omega
    refine ⟨.of ((fr (lastUnit bs) (5 * j % 4)).setWidth 32), (if_neg hc).trans (encFinal_eq_ok.2 ⟨u, hu, ?_⟩)⟩
    simp only [loopAt, hmod, hw (by omega), hg, ← hl]
    rfl

/-- Iteration `j` appends symbol `j` and moves the cursor on by five bits. -/
theorem encIteration_loopAt (fr : FinalRaw) (s : State) (bs : Bytes) (j : Nat) (tmp : Reg Word) (g : Reg (BitVec 5))
    (hj : j < symbolCount bs.length) :
    ∃ tmp' g', encIteration fr (loopAt fr s bs j tmp g) = .ok (loopAt fr s bs (j + 1) tmp' g') := by
  obtain ⟨tmp', h⟩ := encExtract_loopAt fr s bs j tmp g hj
  have hmod := remAt_toNat j
  have hrem : (5 * j % 4 + 5) % 4 = 5 * (j + 1) % 4 := by omega
  have huc : 5 * j / 4 + (5 * j % 4 + 5) / 4 = 5 * (j + 1) / 4 := by omega
  refine ⟨tmp', .of (encGroup fr bs j), encIteration_eq_ok.2
    ⟨_, _, h, encSym_eq_ok.2 ⟨by simp [loopAt], rfl⟩, ?_⟩⟩
  rw [encAdv_eq]
  simp only [loopAt, State.putEo, hmod, hrem, huc]
  simp [State.setCursor, List.range_succ, List.take_of_length_le]

/-- From iteration `j` on, enough fuel runs the loop to its end. -/
theorem encLoop_loopAt (fr : FinalRaw) (s : State) (bs : Bytes) (fuel j : Nat) (tmp : Reg Word) (g : Reg (BitVec 5))
    (hj : j ≤ symbolCount bs.length) (hf : 2 * bs.length ≤ fuel + 5 * j / 4) :
    ∃ tmp' g', encLoop fr fuel (loopAt fr s bs j tmp g) = .ok (loopAt fr s bs (symbolCount bs.length) tmp' g') := by
  induction fuel generalizing j tmp g with
  | zero =>
    obtain rfl : j = symbolCount bs.length := by unfold symbolCount at *; omega
    exact ⟨tmp, g, rfl⟩
  | succ fuel ih =>
    have hm : encMore (loopAt fr s bs j tmp g) = decide (5 * j / 4 < 2 * bs.length) := rfl
    unfold encLoop
    rw [hm]
    by_cases hlt : 5 * j / 4 < 2 * bs.length
    · have hj' : j < symbolCount bs.length := by unfold symbolCount; omega
      obtain ⟨tmp', g', hi⟩ := encIteration_loopAt fr s bs j tmp g hj'
      simp only [hlt, decide_true, if_true, hi, ok_bind]
      exact ih (j + 1) tmp' g' hj' (by omega)
    · obtain rfl : j = symbolCount bs.length := by unfold symbolCount at *; omega
      exact ⟨tmp, g, by simp [hlt]⟩

/-- The units of a hex text are the nibbles of its bytes (R82). -/
theorem unitValues_hexText (bs : Bytes) : unitValues digits (hexText digits bs) = .ok (unitCells bs) := by
  induction bs with
  | nil => rfl
  | cons b bs ih =>
    have hcell : ∀ n : BitVec 4, BitVec.ofNat 8 n.toNat = n.setWidth 8 := by decide
    simp only [hexText, unitValues, unitCells, indexFrom_hexDigit, ih, hcell, ok_bind, pure_eq_ok]

/-- `Encode` of what `EB` holds: it always answers, with the encoded state of the closed form. -/
theorem encodeBuffer_answers (fr : FinalRaw) (s : State) (hh : s.con.h = digits) (he : s.elen = .of s.eb.length) :
    ∃ tmp g, encodeBuffer fr s = .ok (encoded fr s s.eb tmp g) := by
  let sx : State := s.putX (hexText s.con.h s.eb)
  have hhex : encHex s = .ok sx := encHex_eq_ok.2 (by simp [he, sx])
  have hunits : encUnits sx = .ok (sx.putU (unitCells s.eb)) :=
    encUnits_eq_ok.2 ⟨by simp [sx, he], unitCells s.eb,
      by simp [sx, he, hh, List.take_of_length_le, unitValues_hexText], rfl⟩
  have hinit : encInit (sx.putU (unitCells s.eb)) = loopAt fr sx s.eb 0 s.tmp s.g := by
    simp [loopAt, State.putU, State.putEo, State.setCursor, encInit, sx, State.putX]
  obtain ⟨tmp, g, h⟩ := encLoop_loopAt fr sx s.eb (2 * s.eb.length) 0 s.tmp s.g (Nat.zero_le _) (by omega)
  refine ⟨tmp, g, ?_⟩
  unfold encodeBuffer encRunLoop
  rw [hhex, ok_bind, hunits, ok_bind, hinit]
  refine h.trans ?_
  simp [loopAt, encoded, encText, he, sx, State.putX]

end Sys2Proof.Machine
end

