-- ==== Sys2Proof/Laws/Generator.lean ====
section
/-! SUPPORT. Once for each micro-operation of the Generator, everything it can do: if it answers, the answer is given in
full. -/

namespace Sys2Proof.Machine

theorem genChr_eq_ok {s : State} {b : Bool} :
    genChr s = .ok b ↔
      s.ilen.value ≤ s.inp.length ∧ b = (s.inp.take s.ilen.value).all isAlphanumeric := by
  simp [genChr, bind_eq_ok, memReadRange_eq_ok, State.space, and_assoc, eq_comm (a := b)]

theorem genUp_eq_ok {s t : State} :
    genUp s = .ok t ↔
      s.ilen.value ≤ s.inp.length ∧ t = s.putPat ((s.inp.take s.ilen.value).map up) := by
  simp [genUp, bind_eq_ok, memReadRange_eq_ok, State.space, and_assoc, eq_comm (a := t)]

theorem genBytes_eq_ok {s t : State} :
    genBytes s = .ok t ↔
      s.plen.value ≤ s.pat.length ∧ t = s.putCode (s.pat.take s.plen.value) := by
  simp [genBytes, bind_eq_ok, memReadRange_eq_ok, State.space, and_assoc, eq_comm (a := t)]

theorem chainKey_eq_ok {s : State} {key : Bytes} :
    chainKey s = .ok key ↔ (selectedConfig s).keys.toList[s.kidx.value]? = some key := by
  unfold chainKey
  split <;> simp_all

/-- A chain step writes the digest and leaves the MD5 registers as its last MD5 call left them. -/
theorem genChainStep_eq_ok {s t : State} :
    genChainStep s = .ok t ↔
      ∃ key, chainKey s = .ok key ∧ s.clen.value ≤ s.code.length ∧
        t = s.setDigest (hmacMd5 s.con.md5 key (s.code.take s.clen.value))
          (hmacRun s.con.md5 key (s.code.take s.clen.value)) := by
  simp [genChainStep, bind_eq_ok, memReadRange_eq_ok, State.space, and_assoc, eq_comm (a := t)]

theorem genHex_eq_ok {s t : State} :
    genHex s = .ok t ↔
      16 ≤ s.dig.value.length ∧
        t = (s.putCode (hexText s.con.h (s.dig.value.take 16))).setKidx (s.kidx.value + 1) := by
  simp [genHex, bind_eq_ok, memReadRange_eq_ok, State.space, and_assoc, eq_comm (a := t)]

theorem genEncEntry_eq_ok {s t : State} :
    genEncEntry s = .ok t ↔
      16 ≤ s.dig.value.length ∧ t = (s.putEb (s.dig.value.take 16)).enteredFromGen true := by
  simp [genEncEntry, bind_eq_ok, memReadRange_eq_ok, State.space, and_assoc, eq_comm (a := t)]

theorem genCat_eq_ok {s t : State} :
    genCat s = .ok t ↔
      s.plen.value ≤ s.pat.length ∧ s.eolen.value ≤ s.eo.length ∧
        t = (s.putOut (s.pat.take s.plen.value ++ s.eo.take s.eolen.value)).finish statusOk := by
  simp [genCat, bind_eq_ok, memReadRange_eq_ok, State.space, and_assoc, eq_comm (a := t)]

end Sys2Proof.Machine
end

