-- ==== Sys2Proof/Laws/Chain.lean ====
section
/-! SUPPORT. What the chain's loop does as a whole: from any key of the sequence on, one step per key, each digest but the
last turned into text (41_generator.md R137 to R139). -/

namespace Sys2Proof.Machine

@[simp] theorem serialize_length (r : Md5Regs) : (serialize r).length = 16 := rfl

@[simp] theorem hmacMd5_length (tab : Md5Tables) (key msg : Bytes) : (hmacMd5 tab key msg).length = 16 := rfl

/-- The state after the chain has run its last step with the key and the message `last`. -/
def chained (s : State) (last : Bytes × Bytes) (kidx : Nat) : State :=
  { s with
    code := last.2, clen := .of last.2.length, kidx := .of kidx
    dig := .of (hmacMd5 s.con.md5 last.1 last.2), md5 := .of (hmacRun s.con.md5 last.1 last.2) }

theorem head_of_drop {α : Type} {l : List α} {i : Nat} {a : α} {rest : List α} (h : l.drop i = a :: rest) :
    l[i]? = some a := by
  rw [← List.head?_drop, h]
  rfl

/-- The chain's loop from the key of index `i`, with as much fuel as keys that follow it. -/
theorem genChainLoop_answers (rest : List Bytes) (s : State) (i : Nat) (key : Bytes) (hk : s.kidx = .of i)
    (hc : s.clen = .of s.code.length) (hd : (selectedConfig s).keys.toList.drop i = key :: rest) :
    genChainLoop rest.length s = .ok (chained s (lastStep s.con key rest s.code) (i + rest.length)) := by
  have hstep : genChainStep s = .ok (chained s (key, s.code) i) :=
    genChainStep_eq_ok.2 ⟨key, chainKey_eq_ok.2 (by simpa [hk] using head_of_drop hd), by simp [hc], by
      simp [chained, State.setDigest, ← hk, hc]⟩
  induction rest generalizing s i key with
  | nil => exact hstep
  | cons next rest ih =>
    let s1 : State := chained s (key, s.code) i
    let s2 : State := (s1.putCode (hexText s.con.h (hmacMd5 s.con.md5 key s.code))).setKidx (i + 1)
    have hlen := congrArg List.length hd
    simp only [List.length_drop, List.length_cons, KeySeq.toList] at hlen
    have hmore : genChainMore s1 = true := decide_eq_true (show i < (selectedConfig s).keys.nkeys - 1 by
      simp only [KeySeq.nkeys]; omega)
    have hhex : genHex s1 = .ok s2 := genHex_eq_ok.2 ⟨Nat.le_refl _, rfl⟩
    have hd2 : (selectedConfig s2).keys.toList.drop (i + 1) = next :: rest := by
      rw [← List.tail_drop]; exact congrArg List.tail hd
    have hstep2 : genChainStep s2 = .ok (chained s2 (next, s2.code) (i + 1)) :=
      genChainStep_eq_ok.2 ⟨next, chainKey_eq_ok.2 (head_of_drop hd2), Nat.le_refl _, rfl⟩
    have hloop := ih s2 (i + 1) next rfl rfl hd2 hstep2
    have hidx : i + 1 + rest.length = i + (rest.length + 1) := by omega
    rw [hidx] at hloop
    rw [List.length_cons, genChainLoop, hstep, ok_bind, if_pos hmore, hhex, ok_bind]
    exact hloop

end Sys2Proof.Machine
end

