-- ==== Sys2Proof/Laws/Hash.lean ====
section
/-! SUPPORT. What MD5 leaves of its block register, and the lengths of what it computes (42_hmac_md5.md R164, R173, R174). -/

namespace Sys2Proof.Machine

theorem md5Steps_blk (tab : Md5Tables) (steps : List (Fin 64)) (r : Md5Regs) :
    (steps.foldl (md5Step tab) r).blk = r.blk := by
  induction steps generalizing r with
  | nil => rfl
  | cons i steps ih =>
    rw [List.foldl_cons, ih]
    rfl

/-- `Compress` leaves the block it has taken in `BLK`. -/
theorem md5Block_blk (tab : Md5Tables) (r : Md5Regs) (blk : Bytes) : (md5Block tab r blk).blk = blk := by
  dsimp only [md5Block, md5Add, md5Rounds]
  rw [md5Steps_blk]
  rfl

/-- After one block or more of a message that is whole blocks, `BLK` is full. -/
theorem md5Blocks_blk_length (tab : Md5Tables) (n : Nat) (r : Md5Regs) (p : Bytes) (h : p.length = 64 * (n + 1)) :
    (md5Blocks tab (n + 1) r p).blk.length = 64 := by
  induction n generalizing r p with
  | zero =>
    rw [md5Blocks, md5Blocks, md5Block_blk]
    simp
    omega
  | succ n ih =>
    rw [md5Blocks]
    exact ih _ _ (by simp; omega)

@[simp] theorem le64_length (v : BitVec 64) : (le64 v).length = 8 := rfl

end Sys2Proof.Machine
end

