-- ==== Sys2Proof/Laws/Live.lean ====
section
/-! SUPPORT. Which registers hold a value, phase by phase: what the invariant's last clause says, and that it covers what each
phase reads (10_state.md R30, R34, R38). -/

namespace Sys2Proof.Machine

/-- The registers the Encoder carries hold values: its entry, and `PLEN` if it was entered from `G_ENC`. -/
theorem carried_held {s : State} :
    (∀ r ∈ s.carried, s.holds r = true) ↔
      s.encFromGen.held = true ∧ (s.encFromGen.value = true → s.plen.held = true) := by
  cases h : s.encFromGen.value <;> simp [State.carried, State.holds, h]

/-- What the invariant's last clause says in each phase. -/
theorem live_held {s : State} :
    (∀ r ∈ s.live, s.holds r = true) ↔
      match s.ph with
      | .idle => True
      | .gLen | .gChr | .gUp => s.ilen.held = true ∧ s.vsel.held = true
      | .gBytes => s.plen.held = true ∧ s.vsel.held = true
      | .gChain => s.vsel.held = true ∧ s.kidx.held = true ∧ s.clen.held = true ∧ s.plen.held = true
      | .gHex => s.vsel.held = true ∧ s.kidx.held = true ∧ s.dig.held = true ∧ s.plen.held = true
      | .gEnc => s.dig.held = true ∧ s.plen.held = true
      | .gCat => s.plen.held = true ∧ s.eolen.held = true
      | .eHex => s.elen.held = true ∧ s.encFromGen.held = true ∧ (s.encFromGen.value = true → s.plen.held = true)
      | .eUnits =>
        s.elen.held = true ∧ s.x.held = true ∧ s.encFromGen.held = true ∧
          (s.encFromGen.value = true → s.plen.held = true)
      | .eInit => s.ulen.held = true ∧ s.encFromGen.held = true ∧ (s.encFromGen.value = true → s.plen.held = true)
      | .eLoop =>
        s.uc.held = true ∧ s.ulen.held = true ∧ s.rem.held = true ∧ s.eolen.held = true ∧ s.encFromGen.held = true ∧
          (s.encFromGen.value = true → s.plen.held = true)
      | .eDone => s.eolen.held = true ∧ s.encFromGen.held = true ∧ (s.encFromGen.value = true → s.plen.held = true)
      | .done => s.status.held = true ∧ s.olen.held = true := by
  cases h : s.ph <;> simp only [State.live, h, List.forall_mem_cons, carried_held] <;> simp [State.holds]

/-- What a phase reads is among what the command goes on to read. -/
theorem reads_live {s : State} : ∀ r ∈ s.ph.reads, r ∈ s.live := by
  cases h : s.ph <;> simp [Phase.reads, State.live, State.carried, h]

/-- A register that holds a value is the same register in every state that agrees. -/
theorem eq_of_held {α : Type} {r r' : Reg α} (h : r.held = true) (e : r.held? = r'.held?) : r' = r := by
  obtain ⟨a, v⟩ := r
  obtain ⟨a', v'⟩ := r'
  cases a <;> cases a' <;> simp_all [Reg.held?]

/-- A buffer that holds a value is the same buffer in every state that agrees, and so is its length register. -/
theorem buffer_eq_of_held {r r' : Reg Nat} {b b' : Bytes} (h : r.held = true)
    (e : heldBuffer r b = heldBuffer r' b') : r' = r ∧ b' = b := by
  obtain ⟨a, v⟩ := r
  obtain ⟨a', v'⟩ := r'
  cases a <;> cases a' <;> simp_all [Reg.held?, heldBuffer]

theorem State.Agrees.refl (s : State) : s.Agrees s := by constructor <;> rfl

end Sys2Proof.Machine
end

