-- ==== Sys2Proof/Laws/PerInstr.lean ====
section
/-! SUPPORT. Laws stated of every instruction as syntax, one lemma per constructor. -/

namespace Sys2Proof.Laws

/-- The word of an instruction: its reserved field is 0, its operation code is not the reserved one, and its table word of 8
bits decodes to it (R71, R72, R75). -/
def WordFields.Statement (i : Instr) : Prop :=
  (encode i).extractLsb' 2 6 = 0 ∧ (encode i).extractLsb' 0 2 = opOf i ∧ opOf i ≠ 3 ∧
    decodeTableWord 8 (encode i).toNat = some i

theorem WordFields.genV1 : WordFields.Statement .genV1 := by unfold WordFields.Statement; decide

theorem WordFields.genV2 : WordFields.Statement .genV2 := by unfold WordFields.Statement; decide

theorem WordFields.enc : WordFields.Statement .enc := by unfold WordFields.Statement; decide

end Sys2Proof.Laws
end

