-- ==== Sys2Proof/Tests/Slice0.lean ====
section
/-! SUPPORT. Tests: the checks refuse ill-formed terms, words written out from the spec decode, vectors of 95_test_vectors.md
come out, and for every statement with hypotheses a witness that meets them. -/

namespace Sys2Proof.Tests

open Machine

/-! ## Helpers -/

/-- Whether an outcome is a next state with a property. -/
def answers (o : Host.Outcome State Fault Refusal) (p : State → Bool) : Bool :=
  match o with
  | .next t => p t
  | .fault _ => false
  | .refused _ => false

theorem answers_next {o : Host.Outcome State Fault Refusal} {p : State → Bool} (h : answers o p = true) :
    ∃ t, o = .next t ∧ p t = true := by
  cases o with
  | next t => exact ⟨t, rfl, h⟩
  | fault f => cases h
  | refused r => cases h

/-- The constants with the stand-in for V2 of V-G20: lengths 1 and 1, one key `"k"`. -/
def standIn : Constants :=
  { constants with vr := { constants.vr with v2 := { typeLen := 1, varLen := 1, keys := { first := [0x6B], rest := [] } } } }

/-- A core with the stand-in constants, the payload `bs` presented. -/
def given (bs : Bytes) : State := { State.reset with con := standIn, ilen := .of bs.length, inp := bs }

/-- The same with the constants of reset. -/
def givenReset (bs : Bytes) : State := { State.reset with ilen := .of bs.length, inp := bs }

theorem given_holds (bs : Bytes) : (given bs).holdsPayload bs := ⟨Nat.le_refl _, (List.take_length).symm⟩

theorem givenReset_holds (bs : Bytes) : (givenReset bs).holdsPayload bs := ⟨Nat.le_refl _, (List.take_length).symm⟩

/-- The output of an outcome's state. -/
def gives (o : Host.Outcome State Fault Refusal) (status : Byte) (out : Bytes) : Bool :=
  answers o fun t => t.status == .of status && t.olen == .of out.length && t.out == out

/-- A core that has just raised `InvalidLength`: its response is ready. -/
def failed : State := raiseError .invalidLength (given [0x41])

/-! ## Well-formedness -/

theorem test_wf_word : (FormatC.mk 0 2).wf = true := by decide
theorem test_wf_refuses_reserved_field : (FormatC.mk 1 0).wf = false := by decide
theorem test_wf_refuses_reserved_op : (FormatC.mk 0 3).wf = false := by decide
theorem test_wf_transaction : (Transaction.mk 2 1 [0xFF]).wf = true := by decide
theorem test_wf_refuses_wrong_ilen : (Transaction.mk 2 2 [0xFF]).wf = false := by decide
theorem test_wf_response : (Response.mk 0 1 [0x47]).wf = true ∧ (Response.mk 1 0 []).wf = true := by decide
theorem test_wf_refuses_wrong_olen : (Response.mk 0 2 [0x47]).wf = false := by decide
theorem test_wf_refuses_status_4 : (Response.mk 4 0 []).wf = false := by decide
theorem test_wf_refuses_output_on_error : (Response.mk 2 1 [0x47]).wf = false := by decide
theorem test_memory_wf_refuses_wrong_length : Memory.wf { State.reset with olen := .of 2, out := [0x47] } = false := by
  decide
theorem test_memory_wf_refuses_short_digest : Memory.wf { State.reset with dig := .of [0x00] } = false := by
  simp [Memory.wf]

/-! ## Decoding: the words of R72, bit by bit -/

theorem test_decode_genV1 : decodeTableWord 8 0b00000000 = some .genV1 := by decide
theorem test_decode_genV2 : decodeTableWord 8 0b00000001 = some .genV2 := by decide
theorem test_decode_enc : decodeTableWord 8 0b00000010 = some .enc := by decide
theorem test_decode_refuses_op_3 : decodeTableWord 8 0b00000011 = none := by decide
theorem test_decode_refuses_rsv : decodeTableWord 8 0b00000101 = none ∧ decodeTableWord 8 0b10000010 = none := by decide
theorem test_decode_refuses_two_bytes : decodeTableWord 16 0 = none := by decide
theorem test_encode_words : [encode .genV1, encode .genV2, encode .enc] = [0x00, 0x01, 0x02] := by decide

/-! ## Vectors of 95_test_vectors.md, one step each -/

/-- V-E7, `ENC hex:abcd`: the cursor steps over the end. -/
theorem test_enc_two_bytes : gives (exec .enc (given [0xAB, 0xCD])) 0 [0x31, 0x36, 0x51, 0x42] = true := by decide +kernel

/-- V-E12, `ENC hex:0123456789`: no final unit. -/
theorem test_enc_five_bytes :
    gives (exec .enc (given [0x01, 0x23, 0x45, 0x67, 0x89])) 0 [0x47, 0x48, 0x34, 0x54, 0x43, 0x39, 0x4C, 0x41] = true := by
  decide +kernel

/-- V-G3, `GEN.V1 "Ab12cd"`. -/
theorem test_genV1_mixed_case :
    gives (exec .genV1 (givenReset [0x41, 0x62, 0x31, 0x32, 0x63, 0x64])) 0
      [0x41, 0x42, 0x31, 0x32, 0x43, 0x44, 0x4F, 0x46, 0x33, 0x49, 0x34, 0x42, 0x42, 0x48, 0x46, 0x37, 0x4D, 0x34, 0x34,
        0x34, 0x50, 0x48, 0x33, 0x54, 0x56, 0x56, 0x4B, 0x34, 0x34, 0x31, 0x43, 0x47] = true := by
  decide +kernel

/-- V-G13, `GEN.V1 "AB-23"`: the wrong length and a bad byte. -/
theorem test_genV1_doubly_wrong : gives (exec .genV1 (givenReset [0x41, 0x42, 0x2D, 0x32, 0x33])) 1 [] = true := by
  decide +kernel

/-- V-G20, `GEN.V2 "A1"` under the stand-in: one key, so no hex text is formed. -/
theorem test_genV2_one_key :
    gives (exec .genV2 (given [0x41, 0x31])) 0
      [0x41, 0x31, 0x32, 0x53, 0x49, 0x43, 0x53, 0x53, 0x43, 0x32, 0x54, 0x51, 0x33, 0x4C, 0x37, 0x35, 0x39, 0x55, 0x47,
        0x54, 0x42, 0x41, 0x4A, 0x39, 0x36, 0x4D, 0x30, 0x35] = true := by
  decide +kernel

/-- V-G24, `GEN.V2 "A_"` under the stand-in. -/
theorem test_genV2_bad_byte : gives (exec .genV2 (given [0x41, 0x5F])) 2 [] = true := by decide +kernel

/-- V-M9, MD5 of 56 bytes `"x"`: two blocks after padding. -/
theorem test_md5_two_blocks :
    md5 md5Tables (List.replicate 56 0x78) =
      [0x66, 0x8A, 0x72, 0xD5, 0xBA, 0x17, 0xF0, 0x8E, 0x62, 0xDA, 0xBC, 0xAF, 0xAD, 0x6D, 0xB1, 0x4B] := by
  decide +kernel

/-- V-H7, HMAC-MD5 with a key of 65 bytes, hashed first. -/
theorem test_hmac_long_key :
    hmacMd5 md5Tables (List.replicate 65 0x78) [0x6D] =
      [0xA2, 0x3E, 0xDD, 0xF0, 0x98, 0x17, 0xF1, 0x0F, 0x8E, 0x5D, 0xAE, 0x38, 0x74, 0x95, 0x40, 0x0C] := by
  decide +kernel

/-- V-A5: the readings (a) to (c) of the final unit on `ff ff`, whose last symbols differ. -/
theorem test_final_unit_readings :
    [finalRaw 0xF 3, (fun u r => u <<< r : FinalRaw) 0xF 3, (fun u r => u &&& (0xF#4 >>> r) : FinalRaw) 0xF 3].map
      (fun raw => symbol alphabet (finalGroup (raw.setWidth 32))) = [0x42, 0x35, 0x47] := by
  decide

/-- Straight after reset, with nothing written: a placed `GEN.V1` finds its empty pattern too short, and a placed `ENC`
encodes the empty buffer. -/
theorem test_first_step_after_reset :
    gives (step (State.reset.withFetchWord 8 0)) 1 [] = true ∧ gives (step (State.reset.withFetchWord 8 2)) 0 [] = true := by
  decide +kernel

/-- Program P2, its first and third command: an error, then a reserved word, both answered and taken. -/
theorem test_run_errors :
    (match Host.Core.run core 4
        { State.reset with script := [{ cmd := 0x00, ilen := 1, payload := [0x41] }, { cmd := 0x03, ilen := 0, payload := [] }] } with
      | .next t => (State.taken t, State.ph t)
      | .fault _ => ([], .done)
      | .refused _ => ([], .done)) =
      ([{ status := 1, olen := 0, out := [] }, { status := 3, olen := 0, out := [] }], .idle) := by
  decide +kernel

/-! ## Witnesses: the hypotheses of every statement are met -/

/-- An `ENC` of one byte, as a transaction. -/
def encOne : Transaction := { cmd := 0x02, ilen := 1, payload := [0x12] }

theorem witness_StepRunsTheDecodedCommand :
    let s : State := { State.reset with script := [encOne] }
    s.ph = .idle ∧ s.script = encOne :: [] ∧ decode encOne.cmd = .ok .enc := ⟨rfl, rfl, rfl⟩

theorem witness_ReservedWordIsAnswered :
    let t : Transaction := { cmd := 0x03, ilen := 0, payload := [] }
    let s : State := { State.reset with script := [t] }
    s.ph = .idle ∧ s.script = t :: [] ∧ 0x03 ≤ t.cmd.toNat := ⟨rfl, rfl, by decide⟩

theorem failed_shows : failed.shows { status := 1, olen := 0, out := [] } := rfl

theorem witness_TakingTheResponseGoesIdle :
    failed.ph = .done ∧ failed.shows { status := 1, olen := 0, out := [] } := ⟨rfl, failed_shows⟩

theorem witness_IdleCoreWaits : State.reset.ph = .idle ∧ State.reset.script = [] := ⟨rfl, rfl⟩

theorem failed_inv : failed.Inv where
  digitTable := rfl
  memory := raiseError_wf (s := given [0x41]) _ reset_wf
  hexDigits := by simp [failed, raiseError, State.finish, given, State.reset]
  units := by simp [failed, raiseError, State.finish, given, State.reset]
  remBound := by simp [failed, raiseError, State.finish, given, State.reset]
  tmpBound := by simp [failed, raiseError, State.finish, given, State.reset]
  statusLegal := by decide
  errorsEmpty := by decide
  liveHeld := by decide

theorem witness_StepKeepsTheInvariant : failed.Inv ∧ ∃ t, step failed = .next t :=
  ⟨failed_inv, _, rfl⟩

/-- Two states that differ only in what stands in a register that holds no value, `UC`. -/
theorem witness_NoStepReadsBeforeAWrite :
    failed.Inv ∧ failed.Agrees { failed with uc := .unheld 7 } ∧ ∃ t, step failed = .next t :=
  ⟨failed_inv, by constructor <;> rfl, _, rfl⟩

/-- A core in `G_CHAIN` with `KIDX` beyond the last key: no run from reset gets there. -/
def beyondKeys : State := { ((given []).putPat []).putCode [] with vsel := .of 0, kidx := .of 2 }.goTo .gChain

/-- The clause on faults, on such a core. -/
theorem witness_NoStepReadsBeforeAWrite_fault :
    beyondKeys.Inv ∧ beyondKeys.Agrees { beyondKeys with uc := .unheld 7 } ∧
      step beyondKeys = .fault (.outOfRange (.key .v1 2) 0) :=
  ⟨{  digitTable := rfl
      memory := putCode_wf (s := (given []).putPat []) [] (putPat_wf (s := given []) [] reset_wf)
      hexDigits := by simp [beyondKeys, given, State.reset]
      units := by simp [beyondKeys, given, State.reset]
      remBound := by simp [beyondKeys, given, State.reset]
      tmpBound := by simp [beyondKeys, given, State.reset]
      statusLegal := by simp [beyondKeys, given, State.reset]
      errorsEmpty := by simp [beyondKeys, given, State.reset]
      liveHeld := by decide }, by constructor <;> rfl, rfl⟩

/-- R38's report names the register that has not been written, and is empty for a command under way. -/
theorem test_read_before_write_is_reported :
    (State.reset.goTo .gUp).readBeforeWrite = some .ilen ∧ (State.reset.goTo .done).readBeforeWrite = some .status ∧
      ((given [0x41]).goTo .gUp).readBeforeWrite = none := by
  decide

theorem witness_QuietCoreNeverStops : failed.Inv ∧ failed.Quiet :=
  ⟨failed_inv, .inr rfl, fun _ h => (List.not_mem_nil h).elim⟩

theorem enc_answers : answers (exec .enc (given [0x12])) (fun t => t.status == .of 0) = true := by decide +kernel

theorem enc_next : ∃ t, exec .enc (given [0x12]) = .next t :=
  let ⟨t, h, _⟩ := answers_next enc_answers
  ⟨t, h⟩

theorem witness_NothingChangesTheConstants :
    (∃ t, exec .enc (given [0x12]) = .next t) ∧ (∃ t, step failed = .next t) ∧ ∃ t, takeResponse failed = .ok t :=
  ⟨enc_next, ⟨_, rfl⟩, ⟨_, rfl⟩⟩

theorem witness_MicroOperationsFollowThePhases : ∃ t, microOp failed = .ok t := ⟨_, rfl⟩

/-- Both followers of each phase that has two, on the stand-in constants. -/
theorem witness_PhasesBranchOnTheirConditions :
    let at_ (s : State) (p q : Phase) : Bool :=
      s.ph == p && (match microOp s with
        | .ok t => t.ph == q
        | .error _ => false)
    at_ ({ given [0x41, 0x31] with vsel := .of 1 }.goTo .gLen) .gLen .gChr = true ∧
      at_ ({ given [0x41, 0x31, 0x31] with vsel := .of 1 }.goTo .gLen) .gLen .done = true ∧
      at_ ((given [0x41, 0x31]).goTo .gChr) .gChr .gUp = true ∧
      at_ ((given [0x41, 0x2F]).goTo .gChr) .gChr .done = true ∧
      at_ ({ (given []).putCode [] with vsel := .of 0, kidx := .of 0 }.goTo .gChain) .gChain .gHex = true ∧
      at_ ({ (given []).putCode [] with vsel := .of 0, kidx := .of 1 }.goTo .gChain) .gChain .gEnc = true ∧
      at_ ((encInit ((given []).putU [0xA, 0xB])).goTo .eLoop) .eLoop .eLoop = true ∧
      at_ ((encInit ((given []).putU [])).goTo .eLoop) .eLoop .eDone = true ∧
      at_ (((given []).enteredFromGen true).goTo .eDone) .eDone .gCat = true ∧
      at_ ((((given []).putEo []).enteredFromGen false).goTo .eDone) .eDone .done = true := by
  decide +kernel

theorem witness_CommandEndsWithAResponse : ∃ t, exec .enc (given [0x12]) = .next t := enc_next

theorem witness_ShortPayloadsAreFaults :
    (let s : State := { given [] with ilen := .of 1 }
     s.inp.length < s.ilen.value) ∧
      (let s : State := { given [0x41, 0x41, 0x41, 0x41, 0x41] with ilen := .of 6 }
       s.inp.length < s.ilen.value ∧ s.ilen.value = patternLength s.con.vr.v1) ∧
      (let s : State := { given [0x41] with ilen := .of 2 }
       s.inp.length < s.ilen.value ∧ s.ilen.value = patternLength s.con.vr.v2) := by
  decide

theorem witness_EncCompletesInClosedForm :
    (given [0x12]).con.h = digits ∧ (given [0x12]).holdsPayload [0x12] := ⟨rfl, given_holds _⟩

/-- One payload for each clause: the empty one and a length that is a multiple of 5, and one that is not. -/
theorem witness_OnlyTheLastSymbolDependsOnFinalRaw :
    ((given []).con.h = digits ∧ (given []).holdsPayload [] ∧ ([] : Bytes).length % 5 = 0) ∧
      (given [0xFF, 0xFF, 0xFF, 0xFF]).holdsPayload [0xFF, 0xFF, 0xFF, 0xFF] ∧
      ([0xFF, 0xFF, 0xFF, 0xFF] : Bytes).length % 5 ≠ 0 :=
  ⟨⟨rfl, given_holds _, rfl⟩, given_holds _, by decide⟩

/-- Two different states with one payload, and the empty payload. -/
theorem witness_EncIsTotalAndPure :
    (given []).con.h = digits ∧ (given []).holdsPayload [] ∧
      (givenReset [0x12]).con.t = (given [0x12]).con.t ∧ (givenReset [0x12]).con.h = (given [0x12]).con.h ∧
      (givenReset [0x12]).holdsPayload [0x12] ∧ (given [0x12]).holdsPayload [0x12] :=
  ⟨rfl, given_holds _, rfl, rfl, givenReset_holds _, given_holds _⟩

theorem witness_EncLengthAndFinalCursor :
    (given [0x12]).con.h = digits ∧ (given [0x12]).holdsPayload [0x12] ∧ ∃ t, exec .enc (given [0x12]) = .next t :=
  ⟨rfl, given_holds _, enc_next⟩

/-- The two digests of V-E25 that end in `a0` and `a3`. -/
def digestA (last : Byte) : Bytes :=
  [0x0B, 0xE5, 0xFE, 0xB4, 0x1D, 0xD7, 0xF0, 0xDC, 0x4F, 0x53, 0xF1, 0x14, 0x7A, 0x4D, 0x62, last]

theorem witness_EncDropsTheTwoLowestBitsOfADigest :
    ((given (digestA 0xA0)).con.h = digits ∧ (given (digestA 0xA3)).con = (given (digestA 0xA0)).con ∧
      (given (digestA 0xA0)).holdsPayload (digestA 0xA0) ∧ (given (digestA 0xA3)).holdsPayload (digestA 0xA3)) ∧
      ((digestA 0xA0).length = 16 ∧ (digestA 0xA3).length = 16 ∧ (digestA 0xA0).take 15 = (digestA 0xA3).take 15 ∧
        (digestA 0xA0).getD 15 0 >>> 2 = (digestA 0xA3).getD 15 0 >>> 2) ∧
      (∃ t, exec .enc (given (digestA 0xA0)) = .next t) ∧ ∃ t, exec .enc (given (digestA 0xA3)) = .next t := by
  have h (last : Byte) (h : answers (exec .enc (given (digestA last))) (fun _ => true) = true) :
      ∃ t, exec .enc (given (digestA last)) = .next t := let ⟨t, h, _⟩ := answers_next h; ⟨t, h⟩
  exact ⟨⟨rfl, rfl, given_holds _, given_holds _⟩, by decide, h 0xA0 (by decide +kernel), h 0xA3 (by decide +kernel)⟩

/-- A core whose Encoder input is `ab cd`. -/
def loaded : State := (given []).putEb [0xAB, 0xCD]

theorem witness_HexMicroOperationWritesTheDigits :
    loaded.elen.value = loaded.eb.length ∧ loaded.eb[1]? = some 0xCD := by decide

theorem witness_UnitsAreTheNibbles :
    loaded.con.h = digits ∧ loaded.elen.value = loaded.eb.length ∧ loaded.eb[1]? = some 0xCD := by decide

/-- A core in the Encoder's loop on the units `a b c d`, at a given cursor. -/
def looping (uc : Nat) (rem : BitVec 4) : State :=
  { (loaded.putU [0xA, 0xB, 0xC, 0xD]).putEo [] with uc := .of uc, rem := .of rem, g := .of 31 }

/-- `REM` at both ends of its range. -/
theorem witness_PairTakesFiveBitsBelowRem :
    ((looping 0 0).rem.value = 0 ∧ (looping 0 0).u[(looping 0 0).uc.value]? = some 0xA ∧
      (looping 0 0).u[(looping 0 0).uc.value + 1]? = some 0xB) ∧
      ((looping 2 3).rem.value.toNat ≤ 3 ∧ (looping 2 3).u[(looping 2 3).uc.value]? = some 0xC ∧
        (looping 2 3).u[(looping 2 3).uc.value + 1]? = some 0xD ∧ (0xD : Byte).toNat ≤ 15) := by
  decide

theorem witness_FinalUnitIsShiftedByTwo : (looping 3 3).u[(looping 3 3).uc.value]? = some 0xD := by decide

theorem witness_SymbolIsAppended : (looping 0 0).eolen.value = (looping 0 0).eo.length := by decide

/-- Both clauses of the advance: `REM` 2 and `REM` 3. -/
theorem witness_AdvanceMovesFiveBits :
    (looping 2 2).rem.value.toNat ≤ 2 ∧ (looping 3 3).rem.value.toNat = 3 := by decide

/-- The pattern `"AB1234"`. -/
def pattern6 : Bytes := [0x41, 0x42, 0x31, 0x32, 0x33, 0x34]

theorem witness_GenV1CompletesInClosedForm :
    (given pattern6).con.h = digits ∧ (given pattern6).holdsPayload pattern6 ∧
      pattern6.length = patternLength (given pattern6).con.vr.v1 ∧ pattern6.all isAlphanumeric = true :=
  ⟨rfl, given_holds _, rfl, by decide⟩

theorem witness_GenV2CompletesInClosedForm :
    (given [0x41, 0x31]).con.h = digits ∧ (given [0x41, 0x31]).holdsPayload [0x41, 0x31] ∧
      [0x41, 0x31].length = patternLength (given [0x41, 0x31]).con.vr.v2 ∧
      ([0x41, 0x31] : Bytes).all isAlphanumeric = true :=
  ⟨rfl, given_holds _, rfl, by decide⟩

theorem witness_GenV1OfSixCharacters :
    (givenReset pattern6).con = constants ∧ (givenReset pattern6).holdsPayload pattern6 ∧ pattern6.length = 6 ∧
      pattern6.all isAlphanumeric = true := ⟨rfl, givenReset_holds _, rfl, by decide⟩

/-- The four clauses, at lengths one below and one above the right one. -/
theorem witness_InvalidLengthExactlyOnAWrongLength :
    ((given pattern6.tail).ilen.value ≠ patternLength (given pattern6.tail).con.vr.v1) ∧
      ((given [0x41, 0x31, 0x31]).ilen.value ≠ patternLength (given [0x41, 0x31, 0x31]).con.vr.v2) ∧
      (∃ t, exec .genV1 (given pattern6.tail) = .next t ∧ (t.status == .of 1) = true) ∧
      (∃ t, exec .genV2 (given [0x41, 0x31, 0x31]) = .next t ∧ (t.status == .of 1) = true) :=
  ⟨by decide, by decide, answers_next (by decide +kernel), answers_next (by decide +kernel)⟩

/-- A byte just outside a class: `@` before `A`, and a byte of 0x80. -/
theorem witness_InvalidCharactersExactlyOnABadByte :
    ((given [0x41, 0x42, 0x31, 0x32, 0x40, 0x34]).holdsPayload [0x41, 0x42, 0x31, 0x32, 0x40, 0x34] ∧
      [0x41, 0x42, 0x31, 0x32, 0x40, 0x34].length = patternLength standIn.vr.v1 ∧ outsideClasses 0x40) ∧
      ((given [0x41, 0x80]).holdsPayload [0x41, 0x80] ∧ [0x41, 0x80].length = patternLength standIn.vr.v2 ∧
        outsideClasses 0x80) ∧
      (∃ t, exec .genV1 (given [0x41, 0x42, 0x31, 0x32, 0x40, 0x34]) = .next t ∧ (t.status == .of 2) = true) ∧
      (∃ t, exec .genV2 (given [0x41, 0x80]) = .next t ∧ (t.status == .of 2) = true) :=
  ⟨⟨given_holds _, rfl, by decide⟩, ⟨given_holds _, rfl, by decide⟩,
    answers_next (by decide +kernel), answers_next (by decide +kernel)⟩

theorem genV2_next (bs : Bytes) (h : answers (exec .genV2 (given bs)) (fun t => t.status == .of 0) = true) :
    ∃ t, exec .genV2 (given bs) = .next t ∧ t.status = .of 0 := by
  obtain ⟨t, ht, hs⟩ := answers_next h
  exact ⟨t, ht, by simpa using hs⟩

theorem genV2_upper : ∃ t, exec .genV2 (given [0x41, 0x31]) = .next t ∧ t.status = .of 0 :=
  genV2_next _ (by decide +kernel)

/-- `"a1"` and `"A1"`. -/
theorem witness_CaseOfLettersDoesNotMatter :
    (Instr.genV2 ≠ .enc ∧ (given [0x61, 0x31]).con = (given [0x41, 0x31]).con ∧ (given [0x41, 0x31]).con.h = digits ∧
      (given [0x41, 0x31]).holdsPayload [0x41, 0x31] ∧ (given [0x61, 0x31]).holdsPayload [0x61, 0x31]) ∧
      ([0x41, 0x31] : Bytes).map up = ([0x61, 0x31] : Bytes).map up ∧
      (∃ t, exec .genV2 (given [0x41, 0x31]) = .next t ∧ t.status = .of 0) ∧
      ∃ t, exec .genV2 (given [0x61, 0x31]) = .next t ∧ t.status = .of 0 :=
  ⟨⟨by decide, rfl, rfl, given_holds _, given_holds _⟩, by decide, genV2_upper, genV2_next _ (by decide +kernel)⟩

theorem witness_GeneratedCodeHasItsShape :
    Instr.genV2 ≠ .enc ∧ (given [0x41, 0x31]).con.h = digits ∧ (given [0x41, 0x31]).holdsPayload [0x41, 0x31] ∧
      ∃ t, exec .genV2 (given [0x41, 0x31]) = .next t ∧ t.status = .of 0 :=
  ⟨by decide, rfl, given_holds _, genV2_upper⟩

/-- The final digest of V-G20, encoded by `ENC` on its own. -/
theorem witness_SuffixIsEncOfTheFinalDigest :
    ∃ t, exec .genV2 (given [0x41, 0x31]) = .next t ∧ t.status = .of 0 ∧ (given t.dig.value).con = (given [0x41, 0x31]).con ∧
      (given t.dig.value).holdsPayload t.dig.value ∧ ∃ t', exec .enc (given t.dig.value) = .next t' := by
  have h : answers (exec .genV2 (given [0x41, 0x31])) (fun t =>
      t.status == .of 0 && answers (exec .enc (given t.dig.value)) (fun _ => true)) = true := by decide +kernel
  obtain ⟨t, ht, hs⟩ := answers_next h
  simp only [Bool.and_eq_true, beq_iff_eq] at hs
  obtain ⟨t', ht', -⟩ := answers_next hs.2
  exact ⟨t, ht, hs.1, rfl, given_holds _, t', ht'⟩

theorem witness_ChainFoldsOverTheKeys :
    let s := ((given pattern6).select 0).putCode pattern6
    s.vsel = .of 0 ∧ s.clen = .of s.code.length := ⟨rfl, rfl⟩

theorem witness_ChainTextIsTheDigestInHex :
    let s : State := (given []).setDigest (digestA 0xA3) Md5Regs.zero
    s.dig.value.length = 16 ∧ s.dig.value[15]? = some 0xA3 := ⟨rfl, rfl⟩

theorem witness_OutputIsPatternThenSuffix :
    let s := ((given []).putPat [0x41]).putEo [0x47, 0x47]
    s.plen.value = s.pat.length ∧ s.eolen.value = s.eo.length := ⟨rfl, rfl⟩

theorem witness_ResponseDependsOnPayloadAndConstantsOnly :
    (given [0x12]).con.h = digits ∧ (looping 1 1).con = (given [0x12]).con ∧
      (given [0x12]).holdsPayload [0x12] ∧ State.holdsPayload { looping 1 1 with ilen := .of 1, inp := [0x12] } [0x12] :=
  ⟨rfl, rfl, given_holds _, Nat.le_refl _, rfl⟩

/-- A script with a command, an error and a reserved word. -/
theorem witness_RunServesEveryTransaction :
    let ts := [encOne, { cmd := 0x00, ilen := 0, payload := [] }, { cmd := 0xFF, ilen := 1, payload := [0x00] }]
    let s : State := { State.reset with script := ts }
    s.ph = .idle ∧ s.script = ts ∧ s.con.h = digits ∧ ∀ t ∈ ts, t.wf = true := ⟨rfl, rfl, rfl, by decide⟩

theorem witness_InstancesDoNotInterfere :
    (0 : Nat) ≠ 1 ∧ ∃ after, stepInstance 0 [failed, State.reset] = some after := ⟨by decide, _, rfl⟩

/-- Two instances: one is to encode `12 34 56`, the other to refuse a pattern and then to answer a reserved word. -/
def twoCores : List State :=
  [{ State.reset with script := [{ cmd := 0x02, ilen := 3, payload := [0x12, 0x34, 0x56] }] },
    { State.reset with
      script := [{ cmd := 0x00, ilen := 1, payload := [0x41] }, { cmd := 0x03, ilen := 0, payload := [] }] }]

theorem witness_EveryInterleavingServesEachInstance :
    (∀ k ∈ [1, 0, 1, 1, 0, 1], k < twoCores.length) ∧
      ∀ (k : Nat) (s : State), twoCores[k]? = some s →
        s.ph = .idle ∧ s.con.h = digits ∧ (∀ t ∈ s.script, t.wf = true) ∧
          [1, 0, 1, 1, 0, 1].count k = 2 * s.script.length := by
  refine ⟨by decide, fun k s h => ?_⟩
  match k with
  | 0 => cases h; exact ⟨rfl, rfl, by decide, rfl⟩
  | 1 => cases h; exact ⟨rfl, rfl, by decide, rfl⟩
  | k + 2 => simp [twoCores] at h

/-- In the manner of program P5, with V-E9 on the first instance. -/
theorem test_two_instances :
    (runInstances [1, 0, 1, 1, 0, 1] twoCores).map (List.map State.taken) =
      some [[{ status := 0, olen := 5, out := [0x35, 0x53, 0x55, 0x38, 0x4E] }],
        [{ status := 1, olen := 0, out := [] }, { status := 3, olen := 0, out := [] }]] := by
  decide +kernel

/-- Both clauses: a pattern V1 accepts, and one that V1 refuses. -/
theorem witness_WrapperPrintsTheCodeOrFails :
    (commandResponse finalRaw constants (CommandLine.mk (some .v1) pattern6).transaction).status = 0 ∧
      (commandResponse finalRaw constants (CommandLine.mk (some .v1) [0x41]).transaction).status ≠ 0 := by
  decide +kernel

/-- Messages on both sides of the block boundary. -/
theorem witness_PaddingFillsWholeBlocks :
    (List.replicate 55 (0x78 : Byte)).length < 2 ^ 61 ∧ (List.replicate 56 (0x78 : Byte)).length < 2 ^ 61 ∧
      (le64 (bitLength 55))[0]? = some 0xB8 := by
  decide

/-- The three clauses: 65, 63 and exactly 64 bytes. -/
theorem witness_BlockKeyIsSixtyFourBytes :
    64 < (List.replicate 65 (0x78 : Byte)).length ∧ (List.replicate 63 (0x78 : Byte)).length ≤ 64 ∧
      (List.replicate 64 (0x78 : Byte)).length = 64 := by
  decide

theorem witness_MessageWordsAreLittleEndian : (List.replicate 64 (0x01 : Byte)).length = 64 := by decide

/-- Letters at both ends of their class. -/
theorem witness_UppercaseMapsLettersOnly : isAlphanumeric 0x61 = true ∧ isAlphanumeric 0x7A = true := by decide

end Sys2Proof.Tests
end

section
/-! SUPPORT. Runs of the sequencer: what a state between two commands comes to by micro-operations, and the equation of
each phase's micro-operation on a state of any phase that is sent to it (10_state.md R30; 00_scope.md R13). -/

namespace Sys2Proof.Machine

/-- Some number of micro-operations from `s` has the outcome `r`, a state or a fault. -/
def RunsTo (s : State) (r : Except Fault State) : Prop := ∃ n, microOps n s = r

theorem RunsTo.here (s : State) : RunsTo s (.ok s) := ⟨0, rfl⟩

/-- A run goes on from the state that a micro-operation answers. -/
theorem RunsTo.next {s t : State} {r : Except Fault State} (hs : microOp s = .ok t) (ht : RunsTo t r) : RunsTo s r := by
  obtain ⟨n, hn⟩ := ht
  exact ⟨n + 1, by rw [microOps, hs, ok_bind, hn]⟩

/-- A run whose first micro-operation does `x` and moves on with its answer, and which stops where `x` does. -/
theorem RunsTo.bind {α : Type} {s : State} {x : Except Fault α} {f : α → State} {k : α → Except Fault State}
    (hs : microOp s = x >>= fun a => pure (f a)) (hk : ∀ a, x = .ok a → RunsTo (f a) (k a)) : RunsTo s (x >>= k) := by
  cases x with
  | error e => exact ⟨1, by rw [microOps, hs]; rfl⟩
  | ok a => exact .next hs (hk a rfl)

/-- A run of one micro-operation. -/
theorem RunsTo.single (s : State) : RunsTo s (microOp s) := ⟨1, bind_pure (microOp s)⟩

/-! ### The micro-operations do not look at `PH` -/

theorem microOp_gLen (s : State) :
    microOp (s.goTo .gLen) = .ok (if genLen s then s.goTo .gChr else raiseError .invalidLength s) :=
  (apply_ite Except.ok (genLen s = true) _ _).symm

theorem microOp_gChr (s : State) :
    microOp (s.goTo .gChr) =
      genChr s >>= fun b => pure (if b then s.goTo .gUp else raiseError .invalidCharacters s) := by
  refine congrArg (genChr s >>= ·) (funext fun b => ?_)
  cases b <;> rfl

theorem microOp_gUp (s : State) : microOp (s.goTo .gUp) = genUp s >>= fun t => pure (t.goTo .gBytes) := by
  simp only [microOp, genUp, bind_assoc, pure_bind, State.goTo_ph]
  rfl

theorem microOp_gBytes (s : State) :
    microOp (s.goTo .gBytes) = genBytes s >>= fun t => pure ((genChainEntry t).goTo .gChain) := by
  simp only [microOp, genBytes, bind_assoc, pure_bind, State.goTo_ph]
  rfl

theorem microOp_gChain (s : State) : microOp (s.goTo .gChain) = genChainStep s >>= fun t => pure (afterChain t) := by
  simp only [microOp, genChainStep, bind_assoc, pure_bind, State.goTo_ph]
  rfl

theorem microOp_gHex (s : State) : microOp (s.goTo .gHex) = genHex s >>= fun t => pure (t.goTo .gChain) := by
  simp only [microOp, genHex, bind_assoc, pure_bind, State.goTo_ph]
  rfl

theorem microOp_gEnc (s : State) : microOp (s.goTo .gEnc) = genEncEntry s >>= fun t => pure (t.goTo .eHex) := by
  simp only [microOp, genEncEntry, bind_assoc, pure_bind, State.goTo_ph]
  rfl

theorem microOp_gCat (s : State) : microOp (s.goTo .gCat) = genCat s := rfl

theorem microOp_eHex (s : State) : microOp (s.goTo .eHex) = encHex s >>= fun t => pure (t.goTo .eUnits) := by
  simp only [microOp, encHex, bind_assoc, pure_bind, State.goTo_ph]
  rfl

theorem microOp_eUnits (s : State) : microOp (s.goTo .eUnits) = encUnits s >>= fun t => pure (t.goTo .eInit) := by
  simp only [microOp, encUnits, bind_assoc, pure_bind, State.goTo_ph]
  rfl

theorem microOp_eInit (s : State) : microOp (s.goTo .eInit) = .ok ((encInit s).goTo .eLoop) := rfl

/-- While units are left, `E_LOOP` performs one iteration and stays. -/
theorem microOp_eLoop_more {s : State} (h : encMore s = true) :
    microOp (s.goTo .eLoop) = encIteration finalRaw s >>= fun t => pure (t.goTo .eLoop) := by
  have hs : microOp (s.goTo .eLoop) = encIteration finalRaw (s.goTo .eLoop) >>= fun t => pure (t.goTo .eLoop) :=
    if_pos h
  rw [hs]
  unfold encIteration encExtract
  by_cases hc : s.uc.value + 1 < s.ulen.value
  · rw [if_pos hc, if_pos (show (s.goTo .eLoop).uc.value + 1 < (s.goTo .eLoop).ulen.value from hc)]
    simp only [encPair, encSym, appendEo, bind_assoc, pure_bind]
    rfl
  · rw [if_neg hc, if_neg (show ¬ (s.goTo .eLoop).uc.value + 1 < (s.goTo .eLoop).ulen.value from hc)]
    simp only [encFinal, encSym, appendEo, bind_assoc, pure_bind]
    rfl

theorem microOp_eLoop_end {s : State} (h : encMore s = false) : microOp (s.goTo .eLoop) = .ok (s.goTo .eDone) :=
  if_neg (show ¬ encMore s = true by simp [h])

theorem microOp_eDone_gen {s : State} (h : s.encFromGen.value = true) : microOp (s.goTo .eDone) = .ok (s.goTo .gCat) :=
  if_pos h

theorem microOp_eDone_enc {s : State} (h : s.encFromGen.value = false) : microOp (s.goTo .eDone) = encExit s :=
  if_neg (show ¬ s.encFromGen.value = true by simp [h])

/-! ### What an iteration and a chain step leave unchanged -/

/-- A group is written to `TMP` and `G` only. -/
theorem encExtract_frame {fr : FinalRaw} {s t : State} (h : encExtract fr s = .ok t) :
    ∃ tmp g, t = s.setGroup tmp g := by
  unfold encExtract at h
  split at h
  · obtain ⟨-, u0, u1, -, -, rfl⟩ := encPair_eq_ok.1 h
    exact ⟨_, _, rfl⟩
  · obtain ⟨u, -, rfl⟩ := encFinal_eq_ok.1 h
    exact ⟨_, _, rfl⟩

/-- An iteration moves the cursor on by one unit at least, and neither the units nor the Encoder's entry change. -/
theorem encIteration_frame {fr : FinalRaw} {s t : State} (h : encIteration fr s = .ok t) :
    s.uc.value < t.uc.value ∧ t.ulen = s.ulen ∧ t.encFromGen = s.encFromGen := by
  obtain ⟨s1, s2, h1, h2, rfl⟩ := encIteration_eq_ok.1 h
  obtain ⟨tmp, g, rfl⟩ := encExtract_frame h1
  obtain ⟨-, rfl⟩ := encSym_eq_ok.1 h2
  rw [encAdv_eq]
  refine ⟨?_, rfl, rfl⟩
  simp only [State.setCursor_uc, State.putEo_uc, State.putEo_rem, State.setGroup_uc]
  omega

/-- A chain step keeps the cursor of the keys and the variant. -/
theorem genChainStep_frame {s t : State} (h : genChainStep s = .ok t) :
    t.kidx = s.kidx ∧ selectedConfig t = selectedConfig s := by
  obtain ⟨key, -, -, rfl⟩ := genChainStep_eq_ok.1 h
  exact ⟨rfl, rfl⟩

theorem genHex_frame {s t : State} (h : genHex s = .ok t) :
    t.kidx.value = s.kidx.value + 1 ∧ selectedConfig t = selectedConfig s := by
  obtain ⟨-, rfl⟩ := genHex_eq_ok.1 h
  exact ⟨rfl, rfl⟩

/-! ### The Encoder and the chain as runs -/

/-- From `E_LOOP`, the sequencer runs the command's loop to its end: `UC` grows with each iteration, so fuel for the units
left is enough (R104, R232). -/
theorem encLoop_runsTo {k : State → Except Fault State} (fuel : Nat) (s : State)
    (hf : s.ulen.value ≤ fuel + s.uc.value)
    (hk : ∀ t : State, t.encFromGen = s.encFromGen → RunsTo (t.goTo .eDone) (k t)) :
    RunsTo (s.goTo .eLoop) (encLoop finalRaw fuel s >>= k) := by
  induction fuel generalizing s with
  | zero =>
    have hend : encMore s = false := decide_eq_false (by omega)
    exact .next (microOp_eLoop_end hend) (hk s rfl)
  | succ fuel ih =>
    cases hm : encMore s with
    | false =>
      simp only [encLoop, hm, Bool.false_eq_true, if_false]
      exact .next (microOp_eLoop_end hm) (hk s rfl)
    | true =>
      simp only [encLoop, hm, if_true, bind_assoc]
      refine .bind (microOp_eLoop_more hm) fun t ht => ?_
      obtain ⟨huc, hulen, hgen⟩ := encIteration_frame ht
      exact ih t (by rw [hulen]; omega) fun t' ht' => hk t' (ht'.trans hgen)

/-- From `E_HEX`, the sequencer runs `Encode`, and `E_DONE` knows the entry (R30, R100). -/
theorem encodeBuffer_runsTo {k : State → Except Fault State} (s : State)
    (hk : ∀ t : State, t.encFromGen = s.encFromGen → RunsTo (t.goTo .eDone) (k t)) :
    RunsTo (s.goTo .eHex) (encodeBuffer finalRaw s >>= k) := by
  simp only [encodeBuffer, bind_assoc]
  refine .bind (microOp_eHex s) fun s1 h1 => .bind (microOp_eUnits s1) fun s2 h2 => .next (microOp_eInit s2) ?_
  obtain ⟨-, rfl⟩ := encHex_eq_ok.1 h1
  obtain ⟨-, us, -, rfl⟩ := encUnits_eq_ok.1 h2
  exact encLoop_runsTo _ _ (Nat.le_add_right _ _) hk

/-- From `G_CHAIN`, the sequencer runs a step for each key that is left (R30, R137). -/
theorem genChainLoop_runsTo {k : State → Except Fault State} (fuel : Nat) (s : State)
    (hf : (selectedConfig s).keys.nkeys - 1 ≤ fuel + s.kidx.value)
    (hk : ∀ t : State, RunsTo (t.goTo .gEnc) (k t)) :
    RunsTo (s.goTo .gChain) (genChainLoop fuel s >>= k) := by
  induction fuel generalizing s with
  | zero =>
    refine .bind (microOp_gChain s) fun t ht => ?_
    obtain ⟨hkidx, hcfg⟩ := genChainStep_frame ht
    have hend : genChainMore t = false := decide_eq_false (by rw [hkidx, hcfg]; omega)
    simpa [afterChain, hend] using hk t
  | succ fuel ih =>
    simp only [genChainLoop, bind_assoc]
    refine .bind (microOp_gChain s) fun t ht => ?_
    obtain ⟨hkidx, hcfg⟩ := genChainStep_frame ht
    cases hm : genChainMore t with
    | false => simpa [afterChain, hm] using hk t
    | true =>
      simp only [afterChain, hm, if_true, bind_assoc]
      refine .bind (microOp_gHex t) fun t1 ht1 => ih t1 ?_
      obtain ⟨hkidx1, hcfg1⟩ := genHex_frame ht1
      rw [hkidx1, hkidx, hcfg1, hcfg]
      omega

/-! ### A whole command as a run -/

/-- From `G_UP` to `DONE`: the processing of a GEN (R132). -/
theorem genBody_runsTo (s : State) : RunsTo (s.goTo .gUp) (genBody finalRaw s) := by
  unfold genBody
  refine .bind (microOp_gUp s) fun s1 _ => .bind (microOp_gBytes s1) fun s2 _ => ?_
  refine genChainLoop_runsTo _ _ (Nat.le_add_right _ _) fun s3 => ?_
  simp only [genEnc, bind_assoc]
  refine .bind (microOp_gEnc s3) fun s4 h4 => encodeBuffer_runsTo s4 fun t ht => ?_
  obtain ⟨-, rfl⟩ := genEncEntry_eq_ok.1 h4
  have hgen : t.encFromGen.value = true := congrArg Reg.value ht
  exact .next (microOp_eDone_gen hgen) (microOp_gCat t ▸ .single _)

/-- From `G_LEN` to `DONE`: the checks in order, then the processing (R30, R132). -/
theorem gen_runsTo (s : State) : RunsTo (s.goTo .gLen) (gen finalRaw s) := by
  unfold gen
  refine .next (microOp_gLen s) ?_
  cases genLen s with
  | false => exact .here _
  | true =>
    refine .bind (microOp_gChr s) fun b _ => ?_
    cases b with
    | false => exact .here _
    | true => exact genBody_runsTo s

/-- An `ENC` from the micro-operation that enters it to `DONE` (R30, R100). -/
theorem encCommand_runsTo {s s0 : State} (h : microOp s0 = enter .enc s) : RunsTo s0 (encCommand finalRaw s) := by
  refine .bind h fun s1 h1 => encodeBuffer_runsTo s1 fun t ht => ?_
  obtain ⟨-, rfl⟩ := encEntry_eq_ok.1 h1
  have henc : t.encFromGen.value = false := congrArg Reg.value ht
  exact microOp_eDone_enc henc ▸ .single _

/-- A micro-operation that enters a command goes on to the outcome of the command. -/
theorem exec_runsTo {s s0 : State} (i : Instr) (h : microOp s0 = enter i s) :
    ∃ r, RunsTo s0 r ∧ exec i s = toOutcome r := by
  cases i with
  | genV1 => exact ⟨_, .next h (gen_runsTo _), rfl⟩
  | genV2 => exact ⟨_, .next h (gen_runsTo _), rfl⟩
  | enc => exact ⟨_, encCommand_runsTo h, rfl⟩

/-- A micro-operation that accepts the command word in `CMD` goes on to the outcome of the command, reserved words
included (R30, R78). -/
theorem runCommand_runsTo {s s0 : State} (h : microOp s0 = acceptCommand s) :
    ∃ r, RunsTo s0 r ∧ runCommand s = toOutcome r := by
  unfold acceptCommand at h
  unfold runCommand
  cases hd : decode s.cmd.value with
  | ok i =>
    rw [hd] at h
    exact exec_runsTo i h
  | error e =>
    rw [hd] at h
    exact ⟨_, .next h (.here _), rfl⟩

/-- A step in `IDLE`: nothing happens without a command, and else the command runs. -/
theorem idleStep_runsTo {s : State} (h : s.ph = .idle) : ∃ r, RunsTo s r ∧ idleStep s = toOutcome r := by
  have hm : microOp s = idlePhase s := by simp only [microOp, h]
  unfold idlePhase at hm
  unfold idleStep
  cases hi : issueNext s with
  | none => exact ⟨.ok s, .here s, rfl⟩
  | some s1 =>
    rw [hi] at hm
    exact runCommand_runsTo hm

/-- In every phase but `IDLE` a step is one micro-operation. -/
theorem step_of_ne_idle {s : State} (h : s.ph ≠ .idle) : step s = toOutcome (microOp s) := by
  unfold step
  split
  · exact absurd ‹_› h
  · rfl

/-- Settles O15: from `IDLE` a command is followed phase by phase, each phase's micro-operation being the command's own
next operation whatever `PH` holds; from any other phase the step is one micro-operation. -/
theorem stepIsARunOfMicroOperations : Obligations.StepIsARunOfMicroOperations := by
  intro s
  by_cases h : s.ph = .idle
  · have hstep : step s = idleStep s := by simp only [step, h]
    obtain ⟨r, ⟨n, hn⟩, hr⟩ := idleStep_runsTo h
    exact ⟨n, by rw [hstep, hr, hn]⟩
  · obtain ⟨n, hn⟩ := RunsTo.single s
    exact ⟨n, by rw [step_of_ne_idle h, hn]⟩

end Sys2Proof.Machine
end

section
/-! SUPPORT. What a whole command comes to: `ENC` and a GEN end in the state of the closed form, and every command, script
and reserved word is answered with the response of the pure function (40_encoder.md R100; 41_generator.md R132;
00_scope.md R7; 10_state.md R34). -/

namespace Sys2Proof.Machine

/-! ### The payload -/

theorem State.holdsPayload.length {s : State} {bs : Bytes} (h : s.holdsPayload bs) : bs.length = s.ilen.value := by
  obtain ⟨hle, rfl⟩ := h
  exact List.length_take_of_le hle

theorem State.holdsPayload.read {s : State} {bs : Bytes} (h : s.holdsPayload bs) :
    memReadRange s .inp s.ilen.value = .ok bs := memReadRange_eq_ok.2 h

/-- A well-formed transaction puts its payload into the interface (A3). -/
theorem present_holdsPayload {t : Transaction} (s : State) (h : t.wf = true) :
    (present t s).holdsPayload t.payload := by
  have hlen : t.ilen = t.payload.length := eq_of_beq h
  exact ⟨hlen.le, by simp [hlen]⟩

/-! ### The commands in closed form -/

/-- `ENC` ends in the state of the closed form, under every `FINAL_RAW` (R100). -/
theorem encCommand_answers (fr : FinalRaw) {s : State} {bs : Bytes} (hh : s.con.h = digits) (hp : s.holdsPayload bs) :
    ∃ tmp g, encCommand fr s = .ok (encDone fr s bs tmp g) := by
  let s1 : State := (s.putEb bs).enteredFromGen false
  have hentry : encEntry s = .ok s1 := encEntry_eq_ok.2 ⟨hp.1, by rw [← hp.2]⟩
  obtain ⟨tmp, g, hbuf⟩ := encodeBuffer_answers fr s1 hh rfl
  have hexit : encExit (encoded fr s1 bs tmp g) = .ok (encDone fr s bs tmp g) :=
    encExit_eq_ok.2 ⟨by simp [encoded], by
      simp [encoded, encDone, s1, State.putOut, State.finish, State.putEb, State.enteredFromGen,
        List.take_of_length_le]⟩
  exact ⟨tmp, g, by rw [encCommand, hentry, ok_bind, hbuf, ok_bind]; exact hexit⟩

/-- The chain of the variant `VSEL` selects, over the message in `CODE` (R137). -/
theorem genChain_answers {s : State} (hc : s.clen = .of s.code.length) :
    genChain s = .ok (chained s (chainEnd s.con (selectedConfig s).keys s.code)
      ((selectedConfig s).keys.nkeys - 1)) := by
  have h := genChainLoop_answers (selectedConfig s).keys.rest (genChainEntry s) 0 (selectedConfig s).keys.first rfl hc rfl
  rw [Nat.zero_add] at h
  exact h

/-- The processing of a GEN ends in the state of the closed form, under every `FINAL_RAW` (R132). -/
theorem genBody_answers (fr : FinalRaw) {s : State} {bs : Bytes} (hh : s.con.h = digits) (hp : s.holdsPayload bs) :
    ∃ tmp g, genBody fr s = .ok (genDone fr s (selectedConfig s) bs tmp g) := by
  let cfg := selectedConfig s
  let s1 : State := s.putPat (bs.map up)
  let s2 : State := s1.putCode (bs.map up)
  let s3 : State := chained s2 (chainEnd s.con cfg.keys (bs.map up)) (cfg.keys.nkeys - 1)
  let s4 : State := (s3.putEb (finalDigest s.con cfg.keys (bs.map up))).enteredFromGen true
  have hup : genUp s = .ok s1 := genUp_eq_ok.2 ⟨hp.1, by rw [← hp.2]⟩
  have hbytes : genBytes s1 = .ok s2 := genBytes_eq_ok.2 ⟨Nat.le_refl _, by simp [s1, s2, List.take_of_length_le]⟩
  have hchain : genChain s2 = .ok s3 := genChain_answers rfl
  have hentry : genEncEntry s3 = .ok s4 := genEncEntry_eq_ok.2 ⟨Nat.le_refl _, rfl⟩
  obtain ⟨tmp, g, hbuf⟩ := encodeBuffer_answers fr s4 hh rfl
  have hcat : genCat (encoded fr s4 s4.eb tmp g) = .ok (genDone fr s cfg bs tmp g) :=
    genCat_eq_ok.2 ⟨Nat.le_refl _, by simp [encoded], by
      simp [genDone, genCode, finalDigest, encoded, chained, s1, s2, s3, s4, State.putOut, State.finish, State.putEb,
        State.enteredFromGen, State.putPat, State.putCode, List.take_of_length_le]⟩
  refine ⟨tmp, g, ?_⟩
  rw [genBody, hup, ok_bind, hbytes, ok_bind, hchain, ok_bind, genEnc, hentry, ok_bind, hbuf, ok_bind]
  exact hcat

/-! ### Every command answers with the response of the pure function -/

/-- `t` is `s` after a command: in `DONE` with the response `r`, the constants and the host's side as they were. -/
structure State.Answers (s t : State) (r : Response) : Prop where
  shows : t.shows r
  ph : t.ph = .done
  con : t.con = s.con
  script : t.script = s.script
  taken : t.taken = s.taken

/-- A complete output is shown as a success. -/
theorem shows_okResponse {t : State} (hs : t.status = .of statusOk) (ho : t.olen = .of t.out.length) :
    t.shows (okResponse t.out) :=
  response_eq_ok.2 ⟨by rw [ho], by simp [okResponse, hs, ho]⟩

theorem raiseError_answers (e : ErrorKind) (s : State) : s.Answers (raiseError e s) (errorResponse e) where
  shows := rfl
  ph := rfl
  con := rfl
  script := rfl
  taken := rfl

theorem encDone_answers (fr : FinalRaw) (s : State) (bs : Bytes) (tmp : Reg Word) (g : Reg (BitVec 5)) :
    s.Answers (encDone fr s bs tmp g) (okResponse (encText fr s.con.t bs)) where
  shows := shows_okResponse rfl (by simp [encDone])
  ph := rfl
  con := rfl
  script := rfl
  taken := rfl

theorem genDone_answers (fr : FinalRaw) (s : State) (cfg : VariantConfig) (bs : Bytes) (tmp : Reg Word)
    (g : Reg (BitVec 5)) : s.Answers (genDone fr s cfg bs tmp g) (okResponse (genCode fr s.con cfg bs)) where
  shows := shows_okResponse (t := genDone fr s cfg bs tmp g) rfl rfl
  ph := rfl
  con := rfl
  script := rfl
  taken := rfl

/-- The length test of a GEN, in terms of the payload (R133). -/
theorem genLen_iff {s : State} {bs : Bytes} (hp : s.holdsPayload bs) :
    genLen s = true ↔ bs.length = patternLength (selectedConfig s) := by
  rw [hp.length]
  exact beq_iff_eq

/-- The character test of a GEN, in terms of the payload (R134). -/
theorem genChr_answers {s : State} {bs : Bytes} (hp : s.holdsPayload bs) : genChr s = .ok (bs.all isAlphanumeric) :=
  genChr_eq_ok.2 ⟨hp.1, by rw [← hp.2]⟩

/-- A GEN answers with the response of the pure function: an error of the first check that fails, else the code (R132,
R196). -/
theorem gen_answers (fr : FinalRaw) {s : State} {bs : Bytes} (hh : s.con.h = digits) (hp : s.holdsPayload bs) :
    ∃ t, gen fr s = .ok t ∧ s.Answers t (genResponse fr s.con (selectedConfig s) bs) := by
  unfold gen genResponse
  by_cases hlen : bs.length = patternLength (selectedConfig s)
  · rw [if_pos ((genLen_iff hp).2 hlen), if_neg (not_not_intro hlen), genChr_answers hp, ok_bind]
    cases bs.all isAlphanumeric with
    | true =>
      obtain ⟨tmp, g, h⟩ := genBody_answers fr hh hp
      exact ⟨_, h, genDone_answers fr s _ bs tmp g⟩
    | false => exact ⟨_, rfl, raiseError_answers _ s⟩
  · rw [if_neg (mt (genLen_iff hp).1 hlen), if_pos hlen]
    exact ⟨_, rfl, raiseError_answers _ s⟩

/-- A command answers with the response of the pure function, whatever its state holds beside the constants and the payload
(R7, R34). -/
theorem exec_answers (i : Instr) {s : State} {bs : Bytes} (hh : s.con.h = digits) (hp : s.holdsPayload bs) :
    ∃ t, exec i s = .next t ∧ s.Answers t (instrResponse finalRaw s.con i bs) := by
  cases i with
  | genV1 =>
    obtain ⟨t, ht, ha⟩ := gen_answers finalRaw (s := s.select 0) hh hp
    exact ⟨t, toOutcome_eq_next.2 ht, ha.shows, ha.ph, ha.con, ha.script, ha.taken⟩
  | genV2 =>
    obtain ⟨t, ht, ha⟩ := gen_answers finalRaw (s := s.select 1) hh hp
    exact ⟨t, toOutcome_eq_next.2 ht, ha.shows, ha.ph, ha.con, ha.script, ha.taken⟩
  | enc =>
    obtain ⟨tmp, g, h⟩ := encCommand_answers finalRaw hh hp
    exact ⟨_, toOutcome_eq_next.2 h, encDone_answers finalRaw s bs tmp g⟩

/-- Settles O43: both executions show the response of the pure function, which names the constants and the payload only. -/
theorem responseDependsOnPayloadAndConstantsOnly : Obligations.ResponseDependsOnPayloadAndConstantsOnly := by
  intro i s s' bs hh hcon hp hp'
  obtain ⟨t, ht, ha⟩ := exec_answers i hh hp
  obtain ⟨t', ht', ha'⟩ := exec_answers i (hcon ▸ hh) hp'
  exact ⟨t, t', _, ht, ht', ha.shows, hcon ▸ ha'.shows, rfl⟩

/-! ### Transactions and scripts -/

/-- The command word in `CMD`, reserved or not, is answered with the response of the pure function (R34, R78). -/
theorem runCommand_answers {t : Transaction} (s : State) (hh : s.con.h = digits) (ht : t.wf = true) :
    ∃ u, runCommand (present t s) = .next u ∧ s.Answers u (commandResponse finalRaw s.con t) := by
  unfold runCommand commandResponse
  rw [present_cmd]
  cases decode t.cmd with
  | ok i =>
    obtain ⟨u, hu, ha⟩ := exec_answers i (s := present t s) hh (present_holdsPayload s ht)
    exact ⟨u, hu, ha.shows, ha.ph, ha.con, ha.script, ha.taken⟩
  | error e =>
    have ha := raiseError_answers .illegalCommand (present t s)
    exact ⟨_, rfl, ha.shows, ha.ph, ha.con, ha.script, ha.taken⟩

/-- A step in `IDLE` serves the next transaction of the script. -/
theorem step_idle_answers {s : State} {t : Transaction} {rest : List Transaction} (hph : s.ph = .idle)
    (hs : s.script = t :: rest) (hh : s.con.h = digits) (ht : t.wf = true) :
    ∃ u, step s = .next u ∧ { s with script := rest }.Answers u (commandResponse finalRaw s.con t) := by
  have hissue : issueNext s = some (present t { s with script := rest }) := by simp only [issueNext, hs]
  have hstep : step s = runCommand (present t { s with script := rest }) := by simp only [step, hph, idleStep, hissue]
  rw [hstep]
  exact runCommand_answers { s with script := rest } hh ht

/-- A step in `DONE` hands over the response (R30, R201). -/
theorem step_done_takes {u : State} {r : Response} (hph : u.ph = .done) (hr : u.shows r) :
    step u = .next { u with ph := .idle, taken := u.taken ++ [r] } := by
  have hstep : step u = toOutcome (takeResponse u) := by simp only [step, microOp, hph]
  rw [hstep]
  exact toOutcome_eq_next.2 (takeResponse_eq_ok.2 ⟨r, hr, rfl⟩)

theorem coreRun_succ {M : Host.Core} {n : Nat} {s t : M.State} (h : M.step s = .next t) :
    M.run (n + 1) s = M.run n t := by
  rw [Host.Core.run, h]

/-- Settles O44, by induction on the script: the two steps of a transaction take its response and leave an idle core with
the rest of the script. -/
theorem runServesEveryTransaction : Obligations.RunServesEveryTransaction := by
  intro s ts
  induction ts generalizing s with
  | nil =>
    intro hph hs _ _
    exact ⟨s, rfl, hph, hs, rfl, (List.append_nil _).symm⟩
  | cons t rest ih =>
    intro hph hs hh hwf
    obtain ⟨ht, hrest⟩ := List.forall_mem_cons.1 hwf
    obtain ⟨u, hu, ha⟩ := step_idle_answers hph hs hh ht
    have hcon : u.con = s.con := ha.con
    have htaken : u.taken = s.taken := ha.taken
    obtain ⟨s', hrun, hph', hs', hcon', htaken'⟩ :=
      ih { u with ph := .idle, taken := u.taken ++ [commandResponse finalRaw s.con t] } rfl ha.script (hcon ▸ hh) hrest
    refine ⟨s', ?_, hph', hs', hcon'.trans hcon, ?_⟩
    · rw [List.length_cons, Nat.mul_succ, coreRun_succ (M := core) hu,
        coreRun_succ (M := core) (step_done_takes ha.ph ha.shows)]
      exact hrun
    · simp only [htaken', hcon, htaken, List.append_assoc, List.map_cons, List.singleton_append]

end Sys2Proof.Machine
end

section
/-! SUPPORT. The sequencer's transitions: everything that a micro-operation can do, one constructor for each way in which it
answers, and the phases that follow (10_state.md R30). -/

namespace Sys2Proof.Machine

/-- The state in which the host has presented its next transaction `r`, `rest` being left of the script (R70). -/
def State.issued (s : State) (r : Transaction) (rest : List Transaction) : State :=
  present r { s with script := rest }

/-- Everything that a micro-operation can do, by the phase it is performed in and the branch it takes (R30). -/
inductive Transition (s : State) : State → Prop where
  | wait (hph : s.ph = .idle) : Transition s s
  | acceptGen (hph : s.ph = .idle) (r : Transaction) (rest : List Transaction) (v : BitVec 1) :
      Transition s (((s.issued r rest).select v).goTo .gLen)
  | acceptEnc (hph : s.ph = .idle) (r : Transaction) (rest : List Transaction) {t : State}
      (h : encEntry (s.issued r rest) = .ok t) : Transition s (t.goTo .eHex)
  | rejectWord (hph : s.ph = .idle) (r : Transaction) (rest : List Transaction) :
      Transition s (raiseError .illegalCommand (s.issued r rest))
  | lengthRight (hph : s.ph = .gLen) (h : genLen s = true) : Transition s (s.goTo .gChr)
  | lengthWrong (hph : s.ph = .gLen) (h : genLen s = false) : Transition s (raiseError .invalidLength s)
  | charactersRight (hph : s.ph = .gChr) (h : genChr s = .ok true) : Transition s (s.goTo .gUp)
  | charactersWrong (hph : s.ph = .gChr) (h : genChr s = .ok false) : Transition s (raiseError .invalidCharacters s)
  | uppercase (hph : s.ph = .gUp) {t : State} (h : genUp s = .ok t) : Transition s (t.goTo .gBytes)
  | loadMessage (hph : s.ph = .gBytes) {t : State} (h : genBytes s = .ok t) :
      Transition s ((genChainEntry t).goTo .gChain)
  | chainOn (hph : s.ph = .gChain) {t : State} (h : genChainStep s = .ok t) (hm : genChainMore t = true) :
      Transition s (t.goTo .gHex)
  | chainOver (hph : s.ph = .gChain) {t : State} (h : genChainStep s = .ok t) (hm : genChainMore t = false) :
      Transition s (t.goTo .gEnc)
  | digestText (hph : s.ph = .gHex) {t : State} (h : genHex s = .ok t) : Transition s (t.goTo .gChain)
  | loadDigest (hph : s.ph = .gEnc) {t : State} (h : genEncEntry s = .ok t) : Transition s (t.goTo .eHex)
  | compose (hph : s.ph = .gCat) {t : State} (h : genCat s = .ok t) : Transition s t
  | writeHex (hph : s.ph = .eHex) {t : State} (h : encHex s = .ok t) : Transition s (t.goTo .eUnits)
  | writeUnits (hph : s.ph = .eUnits) {t : State} (h : encUnits s = .ok t) : Transition s (t.goTo .eInit)
  | initLoop (hph : s.ph = .eInit) : Transition s ((encInit s).goTo .eLoop)
  | iterate (hph : s.ph = .eLoop) (hm : encMore s = true) {t : State} (h : encIteration finalRaw s = .ok t) :
      Transition s (t.goTo .eLoop)
  | loopOver (hph : s.ph = .eLoop) (hm : encMore s = false) : Transition s (s.goTo .eDone)
  | backToGen (hph : s.ph = .eDone) (hg : s.encFromGen.value = true) : Transition s (s.goTo .gCat)
  | exitEnc (hph : s.ph = .eDone) (hg : s.encFromGen.value = false) {t : State} (h : encExit s = .ok t) : Transition s t
  | take (hph : s.ph = .done) {t : State} (h : takeResponse s = .ok t) : Transition s t

/-- In `IDLE` the core waits, or accepts the word of the transaction that the host issues (R30, R78). -/
theorem transition_of_idlePhase {s t : State} (hph : s.ph = .idle) (h : idlePhase s = .ok t) : Transition s t := by
  unfold idlePhase issueNext at h
  cases hs : s.script with
  | nil =>
    simp only [hs, Except.ok.injEq] at h
    exact h ▸ .wait hph
  | cons r rest =>
    simp only [hs, acceptCommand] at h
    change (match decode r.cmd with
      | .ok i => enter i (s.issued r rest)
      | .error _ => .ok (raiseError .illegalCommand (s.issued r rest))) = .ok t at h
    cases hd : decode r.cmd with
    | error e =>
      simp only [hd, Except.ok.injEq] at h
      exact h ▸ .rejectWord hph r rest
    | ok i =>
      simp only [hd] at h
      cases i with
      | genV1 =>
        cases h
        exact .acceptGen hph r rest 0
      | genV2 =>
        cases h
        exact .acceptGen hph r rest 1
      | enc =>
        obtain ⟨t, ht, ⟨⟩⟩ := bind_eq_ok.1 h
        exact .acceptEnc hph r rest ht

/-- A micro-operation that answers has made one of the transitions. -/
theorem transition_of_microOp {s t : State} (h : microOp s = .ok t) : Transition s t := by
  unfold microOp at h
  cases hph : s.ph <;> simp only [hph] at h
  case idle => exact transition_of_idlePhase hph h
  case gLen =>
    cases hl : genLen s with
    | true =>
      simp only [hl, if_true, Except.ok.injEq] at h
      exact h ▸ .lengthRight hph hl
    | false =>
      simp only [hl, Bool.false_eq_true, if_false, Except.ok.injEq] at h
      exact h ▸ .lengthWrong hph hl
  case gChr =>
    obtain ⟨b, hb, h⟩ := bind_eq_ok.1 h
    cases b with
    | true =>
      cases h
      exact .charactersRight hph hb
    | false =>
      cases h
      exact .charactersWrong hph hb
  case gUp =>
    obtain ⟨u, hu, ⟨⟩⟩ := bind_eq_ok.1 h
    exact .uppercase hph hu
  case gBytes =>
    obtain ⟨u, hu, ⟨⟩⟩ := bind_eq_ok.1 h
    exact .loadMessage hph hu
  case gChain =>
    obtain ⟨u, hu, h⟩ := bind_eq_ok.1 h
    cases hm : genChainMore u with
    | true =>
      simp only [afterChain, hm, if_true, pure_eq_ok, Except.ok.injEq] at h
      exact h ▸ .chainOn hph hu hm
    | false =>
      simp only [afterChain, hm, Bool.false_eq_true, if_false, pure_eq_ok, Except.ok.injEq] at h
      exact h ▸ .chainOver hph hu hm
  case gHex =>
    obtain ⟨u, hu, ⟨⟩⟩ := bind_eq_ok.1 h
    exact .digestText hph hu
  case gEnc =>
    obtain ⟨u, hu, ⟨⟩⟩ := bind_eq_ok.1 h
    exact .loadDigest hph hu
  case gCat => exact .compose hph h
  case eHex =>
    obtain ⟨u, hu, ⟨⟩⟩ := bind_eq_ok.1 h
    exact .writeHex hph hu
  case eUnits =>
    obtain ⟨u, hu, ⟨⟩⟩ := bind_eq_ok.1 h
    exact .writeUnits hph hu
  case eInit =>
    cases h
    exact .initLoop hph
  case eLoop =>
    unfold loopPhase at h
    cases hm : encMore s with
    | true =>
      simp only [hm, if_true] at h
      obtain ⟨u, hu, ⟨⟩⟩ := bind_eq_ok.1 h
      exact .iterate hph hm hu
    | false =>
      simp only [hm, Bool.false_eq_true, if_false, Except.ok.injEq] at h
      exact h ▸ .loopOver hph hm
  case eDone =>
    unfold encDonePhase at h
    cases hg : s.encFromGen.value with
    | true =>
      simp only [hg, if_true, Except.ok.injEq] at h
      exact h ▸ .backToGen hph hg
    | false =>
      simp only [hg, Bool.false_eq_true, if_false] at h
      exact .exitEnc hph hg h
  case done => exact .take hph h

/-- The end of an `ENC` is `DONE` with `STATUS` 0 (R100). -/
theorem encExit_ends {s t : State} (h : encExit s = .ok t) : t.ph = .done ∧ t.status = .of 0 := by
  obtain ⟨-, rfl⟩ := encExit_eq_ok.1 h
  exact ⟨rfl, rfl⟩

/-- GEN.CAT ends the command (R141). -/
theorem genCat_ends {s t : State} (h : genCat s = .ok t) : t.ph = .done := by
  obtain ⟨-, -, rfl⟩ := genCat_eq_ok.1 h
  rfl

/-- After a response is taken the core is idle (R30). -/
theorem takeResponse_ends {s t : State} (h : takeResponse s = .ok t) : t.ph = .idle := by
  obtain ⟨r, -, rfl⟩ := takeResponse_eq_ok.1 h
  rfl

/-- Settles O16: transition by transition, the phase it goes to is in R30's list for the phase it comes from. -/
theorem microOperationsFollowThePhases : Obligations.MicroOperationsFollowThePhases := by
  intro s t h
  cases transition_of_microOp h with
  | compose hph h => simp [Phase.followers, hph, genCat_ends h]
  | exitEnc hph _ h => simp [Phase.followers, hph, encExit_ends h]
  | take hph h => simp [Phase.followers, hph, takeResponse_ends h]
  | wait hph | acceptGen hph | acceptEnc hph | rejectWord hph | lengthRight hph | lengthWrong hph | charactersRight hph
  | charactersWrong hph | uppercase hph | loadMessage hph | chainOn hph | chainOver hph | digestText hph
  | loadDigest hph | writeHex hph | writeUnits hph | initLoop hph | iterate hph | loopOver hph | backToGen hph =>
    simp [Phase.followers, hph]

/-- The three classes, by the byte values of R79's table. -/
theorem isAlphanumeric_iff (c : Byte) : isAlphanumeric c = true ↔ ¬ outsideClasses c := by
  simp only [isAlphanumeric, isDigit, isUpper, isLower, outsideClasses, Bool.or_eq_true, Bool.and_eq_true,
    decide_eq_true_eq, BitVec.le_def, not_not, or_assoc]
  rfl

theorem all_isAlphanumeric_iff (bs : Bytes) :
    bs.all isAlphanumeric = true ↔ ¬ ∃ c ∈ bs, outsideClasses c := by
  simp only [List.all_eq_true, isAlphanumeric_iff, not_exists, not_and]

/-- GEN.LEN, as R133 states it. -/
theorem genLen_eq_true (s : State) : genLen s = true ↔ s.ilen.value = patternLength (selectedConfig s) := beq_iff_eq

/-- The chain's test reads `KIDX` and the variant, which a chain step keeps. -/
theorem genChainMore_after {s t : State} (h : genChainStep s = .ok t) :
    genChainMore t = true ↔ s.kidx.value < (selectedConfig s).keys.nkeys - 1 := by
  obtain ⟨hkidx, hcfg⟩ := genChainStep_frame h
  simp only [genChainMore, decide_eq_true_eq, hkidx, hcfg]

/-- Settles O17: each transition from a phase with two followers carries the condition under which it is made. -/
theorem phasesBranchOnTheirConditions : Obligations.PhasesBranchOnTheirConditions := by
  intro s t hop cfg
  cases transition_of_microOp hop with
  | lengthRight hph hl =>
    have heq : s.ilen.value = patternLength cfg := (genLen_eq_true s).1 hl
    simp [hph, heq]
  | lengthWrong hph hl =>
    have hne : s.ilen.value ≠ patternLength cfg := fun he => by simp [(genLen_eq_true s).2 he] at hl
    simp [hph, hne, ErrorKind.code]
  | charactersRight hph hc =>
    obtain ⟨-, hall⟩ := genChr_eq_ok.1 hc
    rw [if_neg ((all_isAlphanumeric_iff _).1 hall.symm)]
    simp [hph]
  | charactersWrong hph hc =>
    obtain ⟨-, hall⟩ := genChr_eq_ok.1 hc
    have hbad : ∃ c ∈ s.inp.take s.ilen.value, outsideClasses c :=
      not_not.1 fun hn => by simp [(all_isAlphanumeric_iff _).2 hn] at hall
    rw [if_pos hbad]
    simp [hph, ErrorKind.code]
  | chainOn hph h hm =>
    have hlt : s.kidx.value < cfg.keys.nkeys - 1 := (genChainMore_after h).1 hm
    simp [hph, if_pos hlt]
  | chainOver hph h hm =>
    have hend : ¬ s.kidx.value < cfg.keys.nkeys - 1 := fun hlt => by simp [(genChainMore_after h).2 hlt] at hm
    simp [hph, hend]
  | iterate hph hm => simp [hph, of_decide_eq_true hm]
  | loopOver hph hm => simp [hph, of_decide_eq_false hm]
  | backToGen hph hg => simp [hph, hg]
  | exitEnc hph hg h => simp [hph, hg, encExit_ends h]
  | wait hph | acceptGen hph | acceptEnc hph | rejectWord hph | uppercase hph | loadMessage hph | digestText hph
  | loadDigest hph | compose hph | writeHex hph | writeUnits hph | initLoop hph | take hph => simp [hph]

end Sys2Proof.Machine
end

section
/-! SUPPORT. The invariant: its clauses that do not speak of `PH`, which every named update keeps and so every
micro-operation, and the clause on the registers a command goes on to read, transition by transition (10_state.md R28, R31,
R34, R50). -/

namespace Sys2Proof.Machine

/-- The clauses of the invariant that do not depend on the phase: all but `liveHeld`. -/
structure State.Sound (s : State) : Prop where
  digitTable : s.con.h = digits
  memory : Memory.wf s = true
  hexDigits : s.x.held = true → ∀ c ∈ s.x.value, c ∈ digitCodes.take 16
  units : s.ulen.held = true → ∀ c ∈ s.u, c.toNat ≤ 15
  remBound : s.rem.held = true → s.rem.value.toNat ≤ 3
  tmpBound : s.tmp.held = true → s.tmp.value.toNat ≤ 255
  statusLegal : s.status.held = true → s.status.value.toNat ≤ 3
  errorsEmpty : s.status.held = true → s.olen.held = true ∧ (s.status.value = statusOk ∨ s.out = [])

theorem inv_iff {s : State} : s.Inv ↔ s.Sound ∧ ∀ r ∈ s.live, s.holds r = true :=
  ⟨fun h => ⟨{ h with }, h.liveHeld⟩, fun ⟨h, hl⟩ => { h with liveHeld := hl }⟩

/-! ### The named updates -/

namespace State.Sound

variable {s : State}

theorem goTo (h : s.Sound) (p : Phase) : (s.goTo p).Sound := { h with }

theorem select (h : s.Sound) (v : BitVec 1) : (s.select v).Sound := { h with }

theorem setKidx (h : s.Sound) (k : Nat) : (s.setKidx k).Sound := { h with }

theorem enteredFromGen (h : s.Sound) (b : Bool) : (s.enteredFromGen b).Sound := { h with }

theorem issued (h : s.Sound) (r : Transaction) (rest : List Transaction) : (s.issued r rest).Sound := { h with }

theorem putPat (h : s.Sound) (bs : Bytes) : (s.putPat bs).Sound := { h with memory := putPat_wf bs h.memory }

theorem putCode (h : s.Sound) (bs : Bytes) : (s.putCode bs).Sound := { h with memory := putCode_wf bs h.memory }

theorem putEb (h : s.Sound) (bs : Bytes) : (s.putEb bs).Sound := { h with memory := putEb_wf bs h.memory }

theorem putEo (h : s.Sound) (bs : Bytes) : (s.putEo bs).Sound := { h with memory := putEo_wf bs h.memory }

theorem putX (h : s.Sound) {bs : Bytes} (hd : ∀ c ∈ bs, c ∈ digitCodes.take 16) : (s.putX bs).Sound :=
  { h with hexDigits := fun _ => hd }

theorem putU (h : s.Sound) {bs : Bytes} (hu : ∀ c ∈ bs, c.toNat ≤ 15) : (s.putU bs).Sound :=
  { h with memory := putU_wf bs h.memory, units := fun _ => hu }

theorem setCursor (h : s.Sound) (uc : Nat) {rem : Nat} (hr : rem ≤ 3) : (s.setCursor uc rem).Sound :=
  { h with
    remBound := fun _ => by
      rw [State.setCursor_rem, BitVec.toNat_ofNat]
      exact (Nat.mod_le _ _).trans hr }

theorem setGroup (h : s.Sound) {tmp : Word} (ht : tmp.toNat ≤ 255) (g : BitVec 5) : (s.setGroup tmp g).Sound :=
  { h with tmpBound := fun _ => ht }

theorem setDigest (h : s.Sound) {bs : Bytes} {r : Md5Regs} (hd : bs.length = 16) (hb : r.blk.length = 64) :
    (s.setDigest bs r).Sound :=
  { h with memory := setDigest_wf h.memory hd hb }

/-- A success may have any output (R76). -/
theorem succeed (h : s.Sound) (bs : Bytes) : ((s.putOut bs).finish statusOk).Sound :=
  { h with
    memory := putOut_wf (s := s) bs h.memory
    statusLegal := fun _ => Nat.zero_le _
    errorsEmpty := fun _ => ⟨rfl, .inl rfl⟩ }

/-- An error has its code, in 1..3, and no output (R76, R77, R190). -/
theorem raise (h : s.Sound) (e : ErrorKind) : (raiseError e s).Sound :=
  { h with
    memory := raiseError_wf e h.memory
    statusLegal := fun _ => by rw [raiseError_status]; cases e <;> decide
    errorsEmpty := fun _ => ⟨rfl, .inr rfl⟩ }

end State.Sound

/-! ### What the updates write -/

/-- The window of two 4-bit units has 8 bits (R105). -/
theorem pairWindow_le {u0 u1 : Byte} (h0 : u0.toNat ≤ 15) (h1 : u1.toNat ≤ 15) : (pairWindow u0 u1).toNat ≤ 255 := by
  have hlt : (pairWindow u0 u1).toNat < 2 ^ 8 := by
    simp only [pairWindow, BitVec.toNat_or, BitVec.toNat_shiftLeft, BitVec.toNat_setWidth]
    refine Nat.or_lt_two_pow ?_ (by omega)
    rw [Nat.shiftLeft_eq]
    omega
  omega

/-- A raw final unit has 4 bits, whatever `FINAL_RAW` is (R106). -/
theorem finalWindow_le (raw : BitVec 4) : (raw.setWidth 32).toNat ≤ 255 := by
  simp only [BitVec.toNat_setWidth]
  omega

/-- The padded message is whole blocks, at least one (R165). -/
theorem md5Pad_length (msg : Bytes) : (md5Pad msg).length = 64 * ((msg.length + 8) / 64 + 1) := by
  simp only [md5Pad, padZeros, List.length_append, List.length_cons, List.length_replicate, le64_length]
  omega

/-- An MD5 call leaves a whole block in `BLK` (R28, R164). -/
theorem md5Run_blk_length (tab : Md5Tables) (msg : Bytes) : (md5Run tab msg).blk.length = 64 := by
  have hblocks : (md5Pad msg).length / 64 = (msg.length + 8) / 64 + 1 := by
    rw [md5Pad_length]
    omega
  rw [md5Run, hblocks]
  exact md5Blocks_blk_length tab _ _ _ (md5Pad_length msg)

/-! ### The micro-operations -/

namespace State.Sound

variable {s t : State}

theorem encEntry (hs : s.Sound) (h : encEntry s = .ok t) : t.Sound := by
  obtain ⟨-, rfl⟩ := encEntry_eq_ok.1 h
  exact (hs.putEb _).enteredFromGen _

theorem encHex (hs : s.Sound) (h : encHex s = .ok t) : t.Sound := by
  obtain ⟨-, rfl⟩ := encHex_eq_ok.1 h
  rw [hs.digitTable]
  exact hs.putX hexText_mem

/-- The units are 4-bit because `X` holds hex digits (R102). -/
theorem encUnits (hs : s.Sound) (hx : s.x.held = true) (h : encUnits s = .ok t) : t.Sound := by
  obtain ⟨-, us, hus, rfl⟩ := encUnits_eq_ok.1 h
  obtain ⟨vs, hvs, -, hle⟩ := unitValues_digits fun c hc => hs.hexDigits hx c (List.mem_of_mem_take hc)
  rw [hs.digitTable, hvs] at hus
  cases hus
  exact hs.putU hle

theorem encInit (hs : s.Sound) : (encInit s).Sound := (hs.putEo []).setCursor 0 (by decide)

theorem encExtract (hs : s.Sound) (hu : s.ulen.held = true) {fr : FinalRaw} (h : encExtract fr s = .ok t) : t.Sound := by
  unfold Machine.encExtract at h
  split at h
  · obtain ⟨-, u0, u1, h0, h1, rfl⟩ := encPair_eq_ok.1 h
    have hle := hs.units hu
    exact hs.setGroup (pairWindow_le (hle _ (List.mem_of_getElem? h0)) (hle _ (List.mem_of_getElem? h1))) _
  · obtain ⟨u, -, rfl⟩ := encFinal_eq_ok.1 h
    exact hs.setGroup (finalWindow_le _) _

theorem encIteration (hs : s.Sound) (hu : s.ulen.held = true) {fr : FinalRaw} (h : encIteration fr s = .ok t) :
    t.Sound := by
  obtain ⟨s1, s2, h1, h2, rfl⟩ := encIteration_eq_ok.1 h
  obtain ⟨-, rfl⟩ := encSym_eq_ok.1 h2
  rw [encAdv_eq]
  exact ((hs.encExtract hu h1).putEo _).setCursor _ (by omega)

theorem encExit (hs : s.Sound) (h : encExit s = .ok t) : t.Sound := by
  obtain ⟨-, rfl⟩ := encExit_eq_ok.1 h
  exact hs.succeed _

theorem genUp (hs : s.Sound) (h : genUp s = .ok t) : t.Sound := by
  obtain ⟨-, rfl⟩ := genUp_eq_ok.1 h
  exact hs.putPat _

theorem genBytes (hs : s.Sound) (h : genBytes s = .ok t) : t.Sound := by
  obtain ⟨-, rfl⟩ := genBytes_eq_ok.1 h
  exact hs.putCode _

theorem genChainStep (hs : s.Sound) (h : genChainStep s = .ok t) : t.Sound := by
  obtain ⟨key, -, -, rfl⟩ := genChainStep_eq_ok.1 h
  exact hs.setDigest (hmacMd5_length _ _ _) (md5Run_blk_length _ _)

theorem genHex (hs : s.Sound) (h : genHex s = .ok t) : t.Sound := by
  obtain ⟨-, rfl⟩ := genHex_eq_ok.1 h
  exact (hs.putCode _).setKidx _

theorem genEncEntry (hs : s.Sound) (h : genEncEntry s = .ok t) : t.Sound := by
  obtain ⟨-, rfl⟩ := genEncEntry_eq_ok.1 h
  exact (hs.putEb _).enteredFromGen _

theorem genCat (hs : s.Sound) (h : genCat s = .ok t) : t.Sound := by
  obtain ⟨-, -, rfl⟩ := genCat_eq_ok.1 h
  exact hs.succeed _

theorem takeResponse (hs : s.Sound) (h : takeResponse s = .ok t) : t.Sound := by
  obtain ⟨r, -, rfl⟩ := takeResponse_eq_ok.1 h
  exact { hs with }

end State.Sound

/-! ### The invariant at reset and after a transition -/

/-- A register that a phase's micro-operation reads holds a value (R38). -/
theorem State.Inv.reads_held {s : State} {p : Phase} (hs : s.Inv) (hph : s.ph = p) {r : RegName} (hr : r ∈ p.reads) :
    s.holds r = true := by
  subst hph
  exact hs.liveHeld r (reads_live r hr)

/-- Every transition keeps the clauses that do not depend on the phase. -/
theorem Transition.sound {s t : State} (hst : Transition s t) (hs : s.Inv) : t.Sound := by
  obtain ⟨hsound, -⟩ := inv_iff.1 hs
  cases hst with
  | wait => exact hsound
  | acceptGen _ r rest v => exact ((hsound.issued r rest).select v).goTo _
  | acceptEnc _ r rest h => exact ((hsound.issued r rest).encEntry h).goTo _
  | rejectWord _ r rest => exact (hsound.issued r rest).raise _
  | lengthRight | charactersRight | loopOver | backToGen => exact hsound.goTo _
  | lengthWrong | charactersWrong => exact hsound.raise _
  | uppercase _ h => exact (hsound.genUp h).goTo _
  | loadMessage _ h => exact ((hsound.genBytes h).setKidx 0).goTo _
  | chainOn _ h | chainOver _ h => exact (hsound.genChainStep h).goTo _
  | digestText _ h => exact (hsound.genHex h).goTo _
  | loadDigest _ h => exact (hsound.genEncEntry h).goTo _
  | compose _ h => exact hsound.genCat h
  | writeHex _ h => exact (hsound.encHex h).goTo _
  | writeUnits hph h =>
    have hx : s.x.held = true := hs.reads_held hph (r := .x) (by decide)
    exact (hsound.encUnits hx h).goTo _
  | initLoop => exact hsound.encInit.goTo _
  | iterate hph _ h =>
    have hu : s.ulen.held = true := hs.reads_held hph (r := .ulen) (by decide)
    exact (hsound.encIteration hu h).goTo _
  | exitEnc _ _ h => exact hsound.encExit h
  | take _ h => exact hsound.takeResponse h

/-- After every transition each register that the command goes on to read holds a value: the transition has written it, or
the command went on to read it already. -/
theorem Transition.live_held {s t : State} (hst : Transition s t) (hs : ∀ r ∈ s.live, s.holds r = true) :
    ∀ r ∈ t.live, t.holds r = true := by
  have hl := Machine.live_held.1 hs
  refine Machine.live_held.2 ?_
  cases hst with
  | wait => exact hl
  | acceptGen => exact ⟨rfl, rfl⟩
  | acceptEnc _ r rest h =>
    obtain ⟨-, rfl⟩ := encEntry_eq_ok.1 h
    exact ⟨rfl, rfl, fun hg => nomatch hg⟩
  | rejectWord | lengthWrong | charactersWrong => exact ⟨rfl, rfl⟩
  | lengthRight hph | charactersRight hph =>
    simp only [hph] at hl
    exact hl
  | loopOver hph =>
    simp only [hph] at hl
    obtain ⟨-, -, -, heolen, hcarried⟩ := hl
    exact ⟨heolen, hcarried⟩
  | uppercase hph h =>
    simp only [hph] at hl
    obtain ⟨-, rfl⟩ := genUp_eq_ok.1 h
    exact ⟨rfl, hl.2⟩
  | loadMessage hph h =>
    simp only [hph] at hl
    obtain ⟨hplen, hvsel⟩ := hl
    obtain ⟨-, rfl⟩ := genBytes_eq_ok.1 h
    exact ⟨hvsel, rfl, rfl, hplen⟩
  | chainOn hph h =>
    simp only [hph] at hl
    obtain ⟨hvsel, hkidx, -, hplen⟩ := hl
    obtain ⟨key, -, -, rfl⟩ := genChainStep_eq_ok.1 h
    exact ⟨hvsel, hkidx, rfl, hplen⟩
  | chainOver hph h =>
    simp only [hph] at hl
    obtain ⟨-, -, -, hplen⟩ := hl
    obtain ⟨key, -, -, rfl⟩ := genChainStep_eq_ok.1 h
    exact ⟨rfl, hplen⟩
  | digestText hph h =>
    simp only [hph] at hl
    obtain ⟨hvsel, -, -, hplen⟩ := hl
    obtain ⟨-, rfl⟩ := genHex_eq_ok.1 h
    exact ⟨hvsel, rfl, rfl, hplen⟩
  | loadDigest hph h =>
    simp only [hph] at hl
    obtain ⟨-, hplen⟩ := hl
    obtain ⟨-, rfl⟩ := genEncEntry_eq_ok.1 h
    exact ⟨rfl, rfl, fun _ => hplen⟩
  | compose _ h =>
    obtain ⟨-, -, rfl⟩ := genCat_eq_ok.1 h
    exact ⟨rfl, rfl⟩
  | writeHex hph h =>
    simp only [hph] at hl
    obtain ⟨helen, hcarried⟩ := hl
    obtain ⟨-, rfl⟩ := encHex_eq_ok.1 h
    exact ⟨helen, rfl, hcarried⟩
  | writeUnits hph h =>
    simp only [hph] at hl
    obtain ⟨-, -, hcarried⟩ := hl
    obtain ⟨-, us, -, rfl⟩ := encUnits_eq_ok.1 h
    exact ⟨rfl, hcarried⟩
  | initLoop hph =>
    simp only [hph] at hl
    obtain ⟨hulen, hcarried⟩ := hl
    exact ⟨rfl, hulen, rfl, rfl, hcarried⟩
  | iterate hph _ h =>
    simp only [hph] at hl
    obtain ⟨-, hulen, -, -, hcarried⟩ := hl
    obtain ⟨s1, s2, h1, h2, rfl⟩ := encIteration_eq_ok.1 h
    obtain ⟨tmp, g, rfl⟩ := encExtract_frame h1
    obtain ⟨-, rfl⟩ := encSym_eq_ok.1 h2
    rw [encAdv_eq]
    exact ⟨rfl, hulen, rfl, rfl, hcarried⟩
  | backToGen hph hg =>
    simp only [hph] at hl
    obtain ⟨heolen, -, hplen⟩ := hl
    exact ⟨hplen hg, heolen⟩
  | exitEnc _ _ h =>
    obtain ⟨-, rfl⟩ := encExit_eq_ok.1 h
    exact ⟨rfl, rfl⟩
  | take _ h => simp [takeResponse_ends h]

/-- Every micro-operation keeps the invariant. -/
theorem microOp_keeps_inv {s t : State} (hs : s.Inv) (h : microOp s = .ok t) : t.Inv :=
  inv_iff.2 ⟨(transition_of_microOp h).sound hs, (transition_of_microOp h).live_held hs.liveHeld⟩

/-- A run of micro-operations keeps the invariant. -/
theorem microOps_keep_inv {n : Nat} {s t : State} (hs : s.Inv) (h : microOps n s = .ok t) : t.Inv := by
  induction n generalizing s with
  | zero =>
    cases h
    exact hs
  | succ n ih =>
    obtain ⟨u, hu, h⟩ := bind_eq_ok.1 h
    exact ih (microOp_keeps_inv hs hu) h

/-- Settles O11: a step, a whole command included, is a run of micro-operations, and each of them keeps the invariant. -/
theorem stepKeepsTheInvariant : Obligations.StepKeepsTheInvariant := by
  intro s t hs hst
  obtain ⟨n, hn⟩ := stepIsARunOfMicroOperations s
  exact microOps_keep_inv hs (toOutcome_eq_next.1 (hn ▸ hst))

/-- Settles O10: at reset the buffers fit their length registers and no register holds a value. -/
theorem resetMeetsTheInvariant : Obligations.ResetMeetsTheInvariant where
  left :=
    { digitTable := rfl
      memory := reset_wf
      hexDigits := fun h => nomatch h
      units := fun h => nomatch h
      remBound := fun h => nomatch h
      tmpBound := fun h => nomatch h
      statusLegal := fun h => nomatch h
      errorsEmpty := fun h => nomatch h
      liveHeld := fun _ h => nomatch h }
  right := ⟨.inl rfl, fun _ h => nomatch h⟩

end Sys2Proof.Machine
end

section
/-! SUPPORT. What a command leaves unchanged: the constants and the host's side, operation by operation, and the response it
ends with (10_state.md R30; 30_encoding.md R76, R77; 60_exceptions.md R209). -/

namespace Sys2Proof.Machine

/-- The constants, the interface that the host wrote and the host's own fields are in `t` as they are in `s`. -/
structure State.SameHost (s t : State) : Prop where
  con : t.con = s.con
  cmd : t.cmd = s.cmd
  ilen : t.ilen = s.ilen
  inp : t.inp = s.inp
  script : t.script = s.script
  taken : t.taken = s.taken

theorem State.SameHost.refl (s : State) : s.SameHost s := ⟨rfl, rfl, rfl, rfl, rfl, rfl⟩

theorem State.SameHost.trans {s t u : State} (h : s.SameHost t) (h' : t.SameHost u) : s.SameHost u where
  con := h'.con.trans h.con
  cmd := h'.cmd.trans h.cmd
  ilen := h'.ilen.trans h.ilen
  inp := h'.inp.trans h.inp
  script := h'.script.trans h.script
  taken := h'.taken.trans h.taken

/-! ### The Encoder -/

/-- What `Encode` leaves unchanged beside the host's side: the pattern's length; and `EO` goes on holding a value. -/
structure State.EncoderFrame (s t : State) : Prop extends State.SameHost s t where
  plen : t.plen = s.plen
  eolen : s.eolen.held = true → t.eolen.held = true

theorem State.EncoderFrame.refl (s : State) : s.EncoderFrame s where
  toSameHost := .refl s
  plen := rfl
  eolen := id

theorem State.EncoderFrame.trans {s t u : State} (h : s.EncoderFrame t) (h' : t.EncoderFrame u) : s.EncoderFrame u where
  toSameHost := h.toSameHost.trans h'.toSameHost
  plen := h'.plen.trans h.plen
  eolen := h'.eolen ∘ h.eolen

theorem encIteration_encoderFrame {fr : FinalRaw} {s t : State} (h : encIteration fr s = .ok t) : s.EncoderFrame t := by
  obtain ⟨s1, s2, h1, h2, rfl⟩ := encIteration_eq_ok.1 h
  obtain ⟨tmp, g, rfl⟩ := encExtract_frame h1
  obtain ⟨-, rfl⟩ := encSym_eq_ok.1 h2
  rw [encAdv_eq]
  exact { State.SameHost.refl s with plen := rfl, eolen := fun _ => rfl }

theorem encLoop_frame {fr : FinalRaw} {fuel : Nat} {s t : State} (h : encLoop fr fuel s = .ok t) : s.EncoderFrame t := by
  induction fuel generalizing s with
  | zero =>
    cases h
    exact .refl _
  | succ fuel ih =>
    unfold encLoop at h
    split at h
    · obtain ⟨u, hu, h⟩ := bind_eq_ok.1 h
      exact (encIteration_encoderFrame hu).trans (ih h)
    · cases h
      exact .refl _

/-- `Encode` answers exactly as its micro-operations do one after the other (R100). -/
theorem encodeBuffer_eq_ok {fr : FinalRaw} {s t : State} :
    encodeBuffer fr s = .ok t ↔
      ∃ s1 s2, encHex s = .ok s1 ∧ encUnits s1 = .ok s2 ∧ encRunLoop fr (encInit s2) = .ok t := by
  simp [encodeBuffer, bind_eq_ok]

/-- `Encode` leaves the host's side and the pattern, and a value in `EO`. -/
theorem encodeBuffer_frame {fr : FinalRaw} {s t : State} (h : encodeBuffer fr s = .ok t) :
    s.SameHost t ∧ t.plen = s.plen ∧ t.eolen.held = true := by
  obtain ⟨s1, s2, h1, h2, h⟩ := encodeBuffer_eq_ok.1 h
  obtain ⟨-, rfl⟩ := encHex_eq_ok.1 h1
  obtain ⟨-, us, -, rfl⟩ := encUnits_eq_ok.1 h2
  have hloop := encLoop_frame h
  exact ⟨{ hloop with }, hloop.plen, hloop.eolen rfl⟩

/-! ### The chain -/

/-- The chain leaves the host's side and the pattern, and a value in `DIG`. -/
theorem genChainLoop_frame {fuel : Nat} {s t : State} (h : genChainLoop fuel s = .ok t) :
    s.SameHost t ∧ t.plen = s.plen ∧ t.dig.held = true := by
  induction fuel generalizing s with
  | zero =>
    obtain ⟨key, -, -, rfl⟩ := genChainStep_eq_ok.1 h
    exact ⟨{ State.SameHost.refl s with }, rfl, rfl⟩
  | succ fuel ih =>
    obtain ⟨s1, h1, h⟩ := bind_eq_ok.1 h
    obtain ⟨key, -, -, rfl⟩ := genChainStep_eq_ok.1 h1
    split at h
    · obtain ⟨s2, h2, h⟩ := bind_eq_ok.1 h
      obtain ⟨-, rfl⟩ := genHex_eq_ok.1 h2
      obtain ⟨hhost, hplen, hdig⟩ := ih h
      exact ⟨{ hhost with }, hplen, hdig⟩
    · cases h
      exact ⟨{ State.SameHost.refl s with }, rfl, rfl⟩

/-! ### Whole commands -/

/-- `t` is `s` at the end of a command: in `DONE` with a complete, legal response, the host's side as it was. -/
structure State.Ends (s t : State) : Prop extends State.SameHost s t where
  ph : t.ph = .done
  response : ∃ r, t.shows r ∧ r.wf = true

theorem raiseError_ends (e : ErrorKind) (s : State) : s.Ends (raiseError e s) where
  toSameHost := { State.SameHost.refl s with }
  ph := rfl
  response := ⟨errorResponse e, rfl, by cases e <;> rfl⟩

/-- A success ends with the output written (R76, R77). -/
theorem succeed_ends (s : State) (bs : Bytes) : s.Ends ((s.putOut bs).finish statusOk) where
  toSameHost := { State.SameHost.refl s with }
  ph := rfl
  response := ⟨okResponse bs, shows_okResponse (t := (s.putOut bs).finish statusOk) rfl rfl, by
    simp [Response.wf, okResponse, statusOk]⟩

theorem State.SameHost.ends {s t u : State} (h : s.SameHost t) (h' : t.Ends u) : s.Ends u :=
  { h' with toSameHost := h.trans h'.toSameHost }

/-- `ENC` answers exactly as its parts do one after the other (R100). -/
theorem encCommand_eq_ok {fr : FinalRaw} {s t : State} :
    encCommand fr s = .ok t ↔ ∃ s1 s2, encEntry s = .ok s1 ∧ encodeBuffer fr s1 = .ok s2 ∧ encExit s2 = .ok t := by
  simp [encCommand, bind_eq_ok]

/-- The processing of a GEN answers exactly as its parts do one after the other (R132). -/
theorem genBody_eq_ok {fr : FinalRaw} {s t : State} :
    genBody fr s = .ok t ↔
      ∃ s1 s2 s3 s4 s5, genUp s = .ok s1 ∧ genBytes s1 = .ok s2 ∧ genChain s2 = .ok s3 ∧ genEncEntry s3 = .ok s4 ∧
        encodeBuffer fr s4 = .ok s5 ∧ genCat s5 = .ok t := by
  simp [genBody, genEnc, bind_eq_ok]

theorem encCommand_ends {fr : FinalRaw} {s t : State} (h : encCommand fr s = .ok t) : s.Ends t := by
  obtain ⟨s1, s2, h1, h2, h3⟩ := encCommand_eq_ok.1 h
  obtain ⟨-, rfl⟩ := encEntry_eq_ok.1 h1
  obtain ⟨hhost, -⟩ := encodeBuffer_frame h2
  obtain ⟨-, rfl⟩ := encExit_eq_ok.1 h3
  have hs2 : s.SameHost s2 := { hhost with }
  exact hs2.ends (succeed_ends s2 _)

theorem genBody_ends {fr : FinalRaw} {s t : State} (h : genBody fr s = .ok t) : s.Ends t := by
  obtain ⟨s1, s2, s3, s4, s5, h1, h2, h3, h4, h5, h6⟩ := genBody_eq_ok.1 h
  obtain ⟨-, rfl⟩ := genUp_eq_ok.1 h1
  obtain ⟨-, rfl⟩ := genBytes_eq_ok.1 h2
  obtain ⟨hchain, -⟩ := genChainLoop_frame h3
  obtain ⟨-, rfl⟩ := genEncEntry_eq_ok.1 h4
  obtain ⟨henc, -⟩ := encodeBuffer_frame h5
  obtain ⟨-, -, rfl⟩ := genCat_eq_ok.1 h6
  have hs3 : s.SameHost s3 := { hchain with }
  have hs5 : s3.SameHost s5 := { henc with }
  exact (hs3.trans hs5).ends (succeed_ends s5 _)

theorem gen_ends {fr : FinalRaw} {s t : State} (h : gen fr s = .ok t) : s.Ends t := by
  unfold gen at h
  split at h
  · obtain ⟨b, -, h⟩ := bind_eq_ok.1 h
    split at h
    · exact genBody_ends h
    · cases h
      exact raiseError_ends _ s
  · cases h
    exact raiseError_ends _ s

theorem select_sameHost (s : State) (v : BitVec 1) : s.SameHost (s.select v) := { State.SameHost.refl s with }

theorem exec_ends {i : Instr} {s t : State} (h : exec i s = .next t) : s.Ends t := by
  cases i with
  | genV1 => exact (select_sameHost s 0).ends (gen_ends (toOutcome_eq_next.1 h))
  | genV2 => exact (select_sameHost s 1).ends (gen_ends (toOutcome_eq_next.1 h))
  | enc => exact encCommand_ends (toOutcome_eq_next.1 h)

/-- Settles O18: every operation of a command leaves the host's side and the constants, and its last one, the raised error
or the copy to `OUT`, writes the response. -/
theorem commandEndsWithAResponse : Obligations.CommandEndsWithAResponse := by
  intro i s t h
  have he := exec_ends h
  exact ⟨he.ph, he.response, he.con, he.cmd, he.ilen, he.inp, he.script, he.taken⟩

end Sys2Proof.Machine
end

section
/-! SUPPORT. Two states that differ only in what stands in registers that hold no value: every operation whose reads hold
values answers alike from both, and so does every step (10_state.md R34, R37, R38). -/

namespace Sys2Proof.Machine

/-! ### Answering alike -/

/-- Two answers are the same fault, or states that differ at most in what stands in registers that hold no value. -/
structure AnswersAlike (x x' : Except Fault State) : Prop where
  error : ∀ f, x = .error f → x' = .error f
  ok : ∀ t, x = .ok t → ∃ t', x' = .ok t' ∧ t.Agrees t'

/-- The same for outcomes of steps. -/
structure OutcomesAlike (o o' : Host.Outcome State Fault Refusal) : Prop where
  fault : ∀ f, o = .fault f → o' = .fault f
  next : ∀ t, o = .next t → ∃ t', o' = .next t' ∧ t.Agrees t'

theorem State.Agrees.alike {t t' : State} (h : t.Agrees t') : AnswersAlike (.ok t) (.ok t') where
  error := fun _ h => nomatch h
  ok := by
    rintro _ ⟨⟩
    exact ⟨t', rfl, h⟩

theorem State.Agrees.outcomesAlike {t t' : State} (h : t.Agrees t') : OutcomesAlike (.next t) (.next t') where
  fault := fun _ h => nomatch h
  next := by
    rintro _ ⟨⟩
    exact ⟨t', rfl, h⟩

/-- Sequences answer alike if their first parts do and, from what these answer, their second parts do. -/
theorem AnswersAlike.bind {x x' : Except Fault State} {k k' : State → Except Fault State} (hx : AnswersAlike x x')
    (hk : ∀ t t', x = .ok t → t.Agrees t' → AnswersAlike (k t) (k' t')) : AnswersAlike (x >>= k) (x' >>= k') := by
  cases x with
  | error f =>
    rw [hx.error f rfl]
    exact ⟨fun _ h => h, fun _ h => nomatch h⟩
  | ok t =>
    obtain ⟨t', rfl, ht⟩ := hx.ok t rfl
    exact hk t t' rfl ht

/-- The same where the first parts are one and the same read. -/
theorem AnswersAlike.read {α : Type} {x x' : Except Fault α} {k k' : α → Except Fault State} (hx : x' = x)
    (hk : ∀ a, x = .ok a → AnswersAlike (k a) (k' a)) : AnswersAlike (x >>= k) (x' >>= k') := by
  subst hx
  cases x' with
  | error f => exact ⟨fun _ h => h, fun _ h => nomatch h⟩
  | ok a => exact hk a rfl

/-- A test with the same outcome on both sides. -/
theorem AnswersAlike.ite {c : Bool} {x x' y y' : Except Fault State} (hx : AnswersAlike x x') (hy : AnswersAlike y y') :
    AnswersAlike (if c then x else y) (if c then x' else y') := by
  cases c with
  | true => exact hx
  | false => exact hy

/-- Moving on to the same phase. -/
theorem AnswersAlike.goTo {x x' : Except Fault State} (hx : AnswersAlike x x') (p : Phase) :
    AnswersAlike (x >>= fun t => pure (t.goTo p)) (x' >>= fun t => pure (t.goTo p)) :=
  hx.bind fun _ _ _ ht => State.Agrees.alike { ht with ph := rfl }

theorem AnswersAlike.toOutcome {x x' : Except Fault State} (hx : AnswersAlike x x') :
    OutcomesAlike (toOutcome x) (toOutcome x') := by
  cases x with
  | error f =>
    rw [hx.error f rfl]
    exact ⟨fun _ h => h, fun _ h => nomatch h⟩
  | ok t =>
    obtain ⟨t', rfl, ht⟩ := hx.ok t rfl
    exact ht.outcomesAlike

/-! ### Reads -/

theorem memRead_congr {s s' : State} {sp : Space} {i i' : Nat} (hsp : s'.space sp = s.space sp) (hi : i' = i) :
    memRead s' sp i' = memRead s sp i := by
  unfold memRead
  rw [hsp, hi]

theorem memReadRange_congr {s s' : State} {sp : Space} {n n' : Nat} (hsp : s'.space sp = s.space sp) (hn : n' = n) :
    memReadRange s' sp n' = memReadRange s sp n := by
  unfold memReadRange
  rw [hsp, hn]

/-- A whole buffer reads alike if it holds a value. -/
theorem memReadRange_buffer {s s' : State} {sp : Space} {len len' : Reg Nat} (hh : len.held = true)
    (h : heldBuffer len (s.space sp) = heldBuffer len' (s'.space sp)) :
    memReadRange s' sp len'.value = memReadRange s sp len.value := by
  obtain ⟨hlen, hbuf⟩ := buffer_eq_of_held hh h
  exact memReadRange_congr hbuf (congrArg Reg.value hlen)

namespace State.Agrees

variable {s s' : State}

theorem memReadRange_dig (h : s.Agrees s') (hh : s.dig.held = true) (n : Nat) :
    memReadRange s' .dig n = memReadRange s .dig n :=
  memReadRange_congr (congrArg Reg.value (eq_of_held hh h.dig)) rfl

theorem selectedVariant_eq (h : s.Agrees s') (hv : s.vsel.held = true) : selectedVariant s' = selectedVariant s := by
  unfold selectedVariant
  rw [eq_of_held hv h.vsel]

theorem selectedConfig_eq (h : s.Agrees s') (hv : s.vsel.held = true) : selectedConfig s' = selectedConfig s := by
  unfold selectedConfig
  rw [h.selectedVariant_eq hv, h.con]

/-! ### The named updates -/

theorem goTo (h : s.Agrees s') (p : Phase) : (s.goTo p).Agrees (s'.goTo p) := { h with ph := rfl }

theorem select (h : s.Agrees s') (v : BitVec 1) : (s.select v).Agrees (s'.select v) := { h with vsel := rfl }

theorem setKidx (h : s.Agrees s') (k : Nat) : (s.setKidx k).Agrees (s'.setKidx k) := { h with kidx := rfl }

theorem putCode (h : s.Agrees s') (bs : Bytes) : (s.putCode bs).Agrees (s'.putCode bs) := { h with code := rfl }

theorem putEb (h : s.Agrees s') (bs : Bytes) : (s.putEb bs).Agrees (s'.putEb bs) := { h with eb := rfl }

theorem putEo (h : s.Agrees s') (bs : Bytes) : (s.putEo bs).Agrees (s'.putEo bs) := { h with eo := rfl }

theorem enteredFromGen (h : s.Agrees s') (b : Bool) : (s.enteredFromGen b).Agrees (s'.enteredFromGen b) :=
  { h with encFromGen := rfl }

theorem setCursor (h : s.Agrees s') (uc rem : Nat) : (s.setCursor uc rem).Agrees (s'.setCursor uc rem) :=
  { h with uc := rfl, rem := rfl }

theorem setGroup (h : s.Agrees s') (tmp : Word) (g : BitVec 5) : (s.setGroup tmp g).Agrees (s'.setGroup tmp g) :=
  { h with tmp := rfl, g := rfl }

theorem succeed (h : s.Agrees s') (bs : Bytes) :
    ((s.putOut bs).finish statusOk).Agrees ((s'.putOut bs).finish statusOk) :=
  { h with out := rfl, status := rfl, ph := rfl }

theorem raise (h : s.Agrees s') (e : ErrorKind) : (raiseError e s).Agrees (raiseError e s') :=
  { h with out := rfl, status := rfl, ph := rfl }

theorem issued (h : s.Agrees s') (r : Transaction) (rest : List Transaction) :
    (s.issued r rest).Agrees (s'.issued r rest) :=
  { h with script := rfl, cmd := rfl, inp := rfl }

/-! ### The operations of the Encoder -/

theorem encEntry (h : s.Agrees s') (hi : s.ilen.held = true) : AnswersAlike (encEntry s) (encEntry s') :=
  .read (memReadRange_buffer hi h.inp) fun bs _ => ((h.putEb bs).enteredFromGen false).alike

theorem encHex (h : s.Agrees s') (he : s.elen.held = true) : AnswersAlike (encHex s) (encHex s') := by
  refine .read (memReadRange_buffer he h.eb) fun bs _ => ?_
  rw [← h.con]
  exact alike { h with x := rfl }

theorem encUnits (h : s.Agrees s') (he : s.elen.held = true) (hx : s.x.held = true) :
    AnswersAlike (encUnits s) (encUnits s') := by
  obtain ⟨hlen, -⟩ := buffer_eq_of_held he h.eb
  have hx' := eq_of_held hx h.x
  refine .read (memReadRange_congr (congrArg Reg.value hx') (by rw [hlen])) fun cs _ => ?_
  refine .read (by rw [h.con]) fun us _ => ?_
  exact alike { h with u := rfl }

theorem encInit (h : s.Agrees s') : (encInit s).Agrees (encInit s') := (h.putEo []).setCursor 0 0

end State.Agrees

/-- What the Encoder's loop reads holds a value. -/
structure State.LoopHeld (s : State) : Prop where
  uc : s.uc.held = true
  ulen : s.ulen.held = true
  rem : s.rem.held = true
  eolen : s.eolen.held = true

theorem encIteration_loopHeld {fr : FinalRaw} {s t : State} (hs : s.LoopHeld) (h : encIteration fr s = .ok t) :
    t.LoopHeld := by
  obtain ⟨-, hulen, -⟩ := encIteration_frame h
  obtain ⟨s1, s2, h1, h2, rfl⟩ := encIteration_eq_ok.1 h
  obtain ⟨-, rfl⟩ := encSym_eq_ok.1 h2
  rw [encAdv_eq] at hulen ⊢
  exact ⟨rfl, hulen ▸ hs.ulen, rfl, rfl⟩

namespace State.Agrees

variable {s s' : State}

theorem encExtract (h : s.Agrees s') (hs : s.LoopHeld) (fr : FinalRaw) :
    AnswersAlike (encExtract fr s) (encExtract fr s') := by
  obtain ⟨hulen, hu⟩ := buffer_eq_of_held hs.ulen h.u
  have huc := eq_of_held hs.uc h.uc
  have hrem := eq_of_held hs.rem h.rem
  have hread (i : Nat) : memRead s' .u (s'.uc.value + i) = memRead s .u (s.uc.value + i) :=
    memRead_congr hu (by rw [huc])
  unfold Machine.encExtract
  rw [huc, hulen]
  split
  · refine .read (by unfold readRem; rw [hrem]) fun r _ => ?_
    refine .read (hread 0) fun u0 _ => .read (hread 1) fun u1 _ => ?_
    exact (h.setGroup _ _).alike
  · refine .read (hread 0) fun u _ => ?_
    rw [hrem]
    exact (h.setGroup _ _).alike

theorem encSym (h : s.Agrees s') (hg : s.g.held = true) (he : s.eolen.held = true) :
    AnswersAlike (encSym s) (encSym s') := by
  refine .read (memReadRange_buffer he h.eo) fun old _ => ?_
  rw [eq_of_held hg h.g, ← h.con]
  exact (h.putEo _).alike

theorem encAdv (h : s.Agrees s') (hu : s.uc.held = true) (hr : s.rem.held = true) :
    (encAdv s).Agrees (encAdv s') := by
  rw [encAdv_eq, encAdv_eq, eq_of_held hu h.uc, eq_of_held hr h.rem]
  exact h.setCursor _ _

theorem encIteration (h : s.Agrees s') (hs : s.LoopHeld) (fr : FinalRaw) :
    AnswersAlike (encIteration fr s) (encIteration fr s') := by
  refine (h.encExtract hs fr).bind fun t t' ht h1 => ?_
  obtain ⟨tmp, g, rfl⟩ := encExtract_frame ht
  refine (h1.encSym rfl hs.eolen).bind fun u u' hu h2 => ?_
  obtain ⟨-, rfl⟩ := encSym_eq_ok.1 hu
  exact (h2.encAdv hs.uc hs.rem).alike

theorem encMore_eq (h : s.Agrees s') (hs : s.LoopHeld) : encMore s' = encMore s := by
  obtain ⟨hulen, -⟩ := buffer_eq_of_held hs.ulen h.u
  unfold encMore
  rw [hulen, eq_of_held hs.uc h.uc]

theorem encLoop (h : s.Agrees s') (hs : s.LoopHeld) (fr : FinalRaw) (fuel : Nat) :
    AnswersAlike (encLoop fr fuel s) (encLoop fr fuel s') := by
  induction fuel generalizing s s' with
  | zero => exact h.alike
  | succ fuel ih =>
    unfold Machine.encLoop
    rw [h.encMore_eq hs]
    exact .ite ((h.encIteration hs fr).bind fun t t' ht h1 => ih h1 (encIteration_loopHeld hs ht)) h.alike

theorem encodeBuffer (h : s.Agrees s') (he : s.elen.held = true) (fr : FinalRaw) :
    AnswersAlike (encodeBuffer fr s) (encodeBuffer fr s') := by
  refine (h.encHex he).bind fun s1 s1' h1 ha1 => ?_
  obtain ⟨-, rfl⟩ := encHex_eq_ok.1 h1
  refine (ha1.encUnits he rfl).bind fun s2 s2' h2 ha2 => ?_
  obtain ⟨-, us, -, rfl⟩ := encUnits_eq_ok.1 h2
  have hlen : s2'.ulen = .of us.length := (buffer_eq_of_held rfl ha2.u).1
  unfold encRunLoop
  rw [show (Machine.encInit s2').ulen = .of us.length from hlen]
  exact ha2.encInit.encLoop ⟨rfl, rfl, rfl, rfl⟩ fr _

theorem encExit (h : s.Agrees s') (he : s.eolen.held = true) : AnswersAlike (encExit s) (encExit s') :=
  .read (memReadRange_buffer he h.eo) fun bs _ => (h.succeed bs).alike

theorem encCommand (h : s.Agrees s') (hi : s.ilen.held = true) (fr : FinalRaw) :
    AnswersAlike (encCommand fr s) (encCommand fr s') := by
  refine (h.encEntry hi).bind fun s1 s1' h1 ha1 => ?_
  obtain ⟨-, rfl⟩ := encEntry_eq_ok.1 h1
  refine (ha1.encodeBuffer rfl fr).bind fun s2 s2' h2 ha2 => ?_
  obtain ⟨-, -, heolen⟩ := encodeBuffer_frame h2
  exact ha2.encExit heolen

/-! ### The operations of the Generator -/

theorem genLen_eq (h : s.Agrees s') (hi : s.ilen.held = true) (hv : s.vsel.held = true) : genLen s' = genLen s := by
  obtain ⟨hlen, -⟩ := buffer_eq_of_held hi h.inp
  unfold genLen
  rw [hlen, h.selectedConfig_eq hv]

theorem genChr_eq (h : s.Agrees s') (hi : s.ilen.held = true) : genChr s' = genChr s := by
  unfold genChr
  rw [memReadRange_buffer (sp := .inp) hi h.inp]

theorem genUp (h : s.Agrees s') (hi : s.ilen.held = true) : AnswersAlike (genUp s) (genUp s') :=
  .read (memReadRange_buffer hi h.inp) fun _ _ => alike { h with pat := rfl }

theorem genBytes (h : s.Agrees s') (hp : s.plen.held = true) : AnswersAlike (genBytes s) (genBytes s') :=
  .read (memReadRange_buffer hp h.pat) fun bs _ => (h.putCode bs).alike

theorem chainKey_eq (h : s.Agrees s') (hv : s.vsel.held = true) (hk : s.kidx.held = true) :
    chainKey s' = chainKey s := by
  unfold chainKey
  rw [h.selectedConfig_eq hv, h.selectedVariant_eq hv, eq_of_held hk h.kidx]

theorem genChainStep (h : s.Agrees s') (hv : s.vsel.held = true) (hk : s.kidx.held = true) (hc : s.clen.held = true) :
    AnswersAlike (genChainStep s) (genChainStep s') := by
  refine .read (h.chainKey_eq hv hk) fun key _ => .read (memReadRange_buffer hc h.code) fun msg _ => ?_
  rw [← h.con]
  exact alike { h with dig := rfl, md5 := rfl }

theorem genChainMore_eq (h : s.Agrees s') (hv : s.vsel.held = true) (hk : s.kidx.held = true) :
    genChainMore s' = genChainMore s := by
  unfold genChainMore
  rw [h.selectedConfig_eq hv, eq_of_held hk h.kidx]

theorem genHex (h : s.Agrees s') (hd : s.dig.held = true) (hk : s.kidx.held = true) :
    AnswersAlike (genHex s) (genHex s') := by
  refine .read (h.memReadRange_dig hd 16) fun bs _ => ?_
  rw [eq_of_held hk h.kidx, ← h.con]
  exact ((h.putCode _).setKidx _).alike

theorem genChainLoop (h : s.Agrees s') (hv : s.vsel.held = true) (hk : s.kidx.held = true) (hc : s.clen.held = true)
    (fuel : Nat) : AnswersAlike (genChainLoop fuel s) (genChainLoop fuel s') := by
  induction fuel generalizing s s' with
  | zero => exact h.genChainStep hv hk hc
  | succ fuel ih =>
    refine (h.genChainStep hv hk hc).bind fun s1 s1' h1 ha1 => ?_
    obtain ⟨key, -, -, rfl⟩ := genChainStep_eq_ok.1 h1
    rw [ha1.genChainMore_eq hv hk]
    refine .ite ((ha1.genHex rfl hk).bind fun s2 s2' h2 ha2 => ?_) ha1.alike
    obtain ⟨-, rfl⟩ := genHex_eq_ok.1 h2
    exact ih ha2 hv rfl rfl

theorem genChain (h : s.Agrees s') (hv : s.vsel.held = true) (hc : s.clen.held = true) :
    AnswersAlike (genChain s) (genChain s') := by
  unfold Machine.genChain
  rw [h.selectedConfig_eq hv]
  exact (h.setKidx 0).genChainLoop hv rfl hc _

theorem genEncEntry (h : s.Agrees s') (hd : s.dig.held = true) : AnswersAlike (genEncEntry s) (genEncEntry s') :=
  .read (h.memReadRange_dig hd 16) fun bs _ => ((h.putEb bs).enteredFromGen true).alike

theorem genCat (h : s.Agrees s') (hp : s.plen.held = true) (he : s.eolen.held = true) :
    AnswersAlike (genCat s) (genCat s') :=
  .read (memReadRange_buffer hp h.pat) fun _ _ => .read (memReadRange_buffer he h.eo) fun _ _ => (h.succeed _).alike

theorem genBody (h : s.Agrees s') (hi : s.ilen.held = true) (hv : s.vsel.held = true) (fr : FinalRaw) :
    AnswersAlike (genBody fr s) (genBody fr s') := by
  refine (h.genUp hi).bind fun s1 s1' h1 ha1 => ?_
  obtain ⟨-, rfl⟩ := genUp_eq_ok.1 h1
  refine (ha1.genBytes rfl).bind fun s2 s2' h2 ha2 => ?_
  obtain ⟨-, rfl⟩ := genBytes_eq_ok.1 h2
  refine (ha2.genChain hv rfl).bind fun s3 s3' h3 ha3 => ?_
  obtain ⟨-, hplen, hdig⟩ := genChainLoop_frame h3
  unfold genEnc
  refine ((ha3.genEncEntry hdig).bind fun s4 s4' h4 ha4 => ?_).bind fun s5 s5' h5 ha5 => ?_
  · obtain ⟨-, rfl⟩ := genEncEntry_eq_ok.1 h4
    exact ha4.encodeBuffer rfl fr
  · obtain ⟨s4, h4, h5⟩ := bind_eq_ok.1 h5
    obtain ⟨-, rfl⟩ := genEncEntry_eq_ok.1 h4
    obtain ⟨-, hplen', heolen⟩ := encodeBuffer_frame h5
    refine ha5.genCat ?_ heolen
    rw [hplen']
    exact congrArg Reg.held hplen

theorem gen (h : s.Agrees s') (hi : s.ilen.held = true) (hv : s.vsel.held = true) (fr : FinalRaw) :
    AnswersAlike (gen fr s) (gen fr s') := by
  unfold Machine.gen
  rw [h.genLen_eq hi hv]
  exact .ite (.read (h.genChr_eq hi) fun _ _ => .ite (h.genBody hi hv fr) (h.raise _).alike) (h.raise _).alike

/-! ### Commands, responses and the sequencer -/

theorem exec (h : s.Agrees s') (hi : s.ilen.held = true) (i : Instr) : OutcomesAlike (exec i s) (exec i s') := by
  cases i with
  | genV1 => exact ((h.select 0).gen hi rfl finalRaw).toOutcome
  | genV2 => exact ((h.select 1).gen hi rfl finalRaw).toOutcome
  | enc => exact (h.encCommand hi finalRaw).toOutcome

theorem takeResponse (h : s.Agrees s') (hs : s.status.held = true) (ho : s.olen.held = true) :
    AnswersAlike (takeResponse s) (takeResponse s') := by
  obtain ⟨hlen, -⟩ := buffer_eq_of_held ho h.out
  have hresponse : response s' = response s := by
    unfold response
    rw [memReadRange_buffer (sp := .out) ho h.out, hlen, eq_of_held hs h.status]
  refine .read hresponse fun r _ => alike { h with ph := rfl, taken := ?_ }
  exact congrArg (· ++ [r]) h.taken

/-- In `IDLE` the host issues the same transaction to both, or none. -/
theorem idleStep (h : s.Agrees s') : OutcomesAlike (idleStep s) (idleStep s') := by
  unfold Machine.idleStep issueNext
  rw [← h.script]
  cases s.script with
  | nil => exact h.outcomesAlike
  | cons r rest =>
    have hr := h.issued r rest
    change OutcomesAlike (runCommand (s.issued r rest)) (runCommand (s'.issued r rest))
    unfold runCommand
    rw [show (s'.issued r rest).cmd = (s.issued r rest).cmd from rfl]
    cases decode (s.issued r rest).cmd.value with
    | ok i => exact hr.exec rfl i
    | error e => exact (hr.raise _).outcomesAlike

/-- A micro-operation of a phase between `IDLE` and `DONE`, or of `DONE`, answers alike. -/
theorem microOp (h : s.Agrees s') (hs : s.Inv) (hne : s.ph ≠ .idle) : AnswersAlike (microOp s) (microOp s') := by
  have hread {p : Phase} (hph : s.ph = p) (r : RegName) (hr : r ∈ p.reads) : s.holds r = true := hs.reads_held hph hr
  unfold Machine.microOp
  rw [← h.ph]
  cases hph : s.ph with
  | idle => exact absurd hph hne
  | gLen =>
    rw [h.genLen_eq (hread hph .ilen (by decide)) (hread hph .vsel (by decide))]
    exact .ite (h.goTo _).alike (h.raise _).alike
  | gChr =>
    exact .read (h.genChr_eq (hread hph .ilen (by decide))) fun _ _ => .ite (h.goTo _).alike (h.raise _).alike
  | gUp => exact (h.genUp (hread hph .ilen (by decide))).goTo _
  | gBytes =>
    exact (h.genBytes (hread hph .plen (by decide))).bind fun _ _ _ ht => ((ht.setKidx 0).goTo _).alike
  | gChain =>
    have hv : s.vsel.held = true := hread hph .vsel (by decide)
    have hk : s.kidx.held = true := hread hph .kidx (by decide)
    refine (h.genChainStep hv hk (hread hph .clen (by decide))).bind fun t t' h1 ht => ?_
    obtain ⟨key, -, -, rfl⟩ := genChainStep_eq_ok.1 h1
    unfold afterChain
    rw [ht.genChainMore_eq hv hk]
    split <;> exact (ht.goTo _).alike
  | gHex => exact (h.genHex (hread hph .dig (by decide)) (hread hph .kidx (by decide))).goTo _
  | gEnc => exact (h.genEncEntry (hread hph .dig (by decide))).goTo _
  | gCat => exact h.genCat (hread hph .plen (by decide)) (hread hph .eolen (by decide))
  | eHex => exact (h.encHex (hread hph .elen (by decide))).goTo _
  | eUnits => exact (h.encUnits (hread hph .elen (by decide)) (hread hph .x (by decide))).goTo _
  | eInit => exact (h.encInit.goTo _).alike
  | eLoop =>
    have hl : s.LoopHeld := ⟨hread hph .uc (by decide), hread hph .ulen (by decide), hread hph .rem (by decide),
      hread hph .eolen (by decide)⟩
    unfold loopPhase
    rw [h.encMore_eq hl]
    exact .ite ((h.encIteration hl finalRaw).goTo _) (h.goTo _).alike
  | eDone =>
    unfold encDonePhase
    rw [eq_of_held (hread hph .encFromGen (by decide)) h.encFromGen]
    exact .ite (h.goTo _).alike (h.encExit (hread hph .eolen (by decide)))
  | done => exact h.takeResponse (hread hph .status (by decide)) (hread hph .olen (by decide))

/-- From two states that agree, the first with the invariant, steps answer alike. -/
theorem step (h : s.Agrees s') (hs : s.Inv) : OutcomesAlike (step s) (step s') := by
  by_cases hph : s.ph = .idle
  · have hstep : Machine.step s = Machine.idleStep s := by simp only [Machine.step, hph]
    have hstep' : Machine.step s' = Machine.idleStep s' := by simp only [Machine.step, ← h.ph, hph]
    rw [hstep, hstep']
    exact h.idleStep
  · rw [step_of_ne_idle hph, step_of_ne_idle (h.ph ▸ hph)]
    exact (h.microOp hs hph).toOutcome

end State.Agrees

/-- R38's report is empty where the registers that the phase reads hold values. -/
theorem readBeforeWrite_eq_none {s : State} (hs : s.Inv) : s.readBeforeWrite = none :=
  List.find?_eq_none.2 fun r hr => by simp [hs.reads_held rfl hr]

/-- Settles O12: the invariant gives each read a value, the one that stands in both states; so every operation, and with it
every step, answers alike from both. -/
theorem noStepReadsBeforeAWrite : Obligations.NoStepReadsBeforeAWrite :=
  ⟨fun _ hs => readBeforeWrite_eq_none hs, fun _ _ hs h => ⟨(h.step hs).fault, (h.step hs).next⟩⟩

end Sys2Proof.Machine
end

section
/-! SUPPORT. The step in `IDLE` and in `DONE`, the state after reset, the hex text of a digest, and what the closed forms say of
an `ENC`'s length and of GEN.V1 under V1's two keys (10_state.md R30, R36, R37; 40_encoder.md R109; 41_generator.md R138). -/

namespace Sys2Proof.Machine

/-! ### Steps -/

/-- A step in `IDLE` runs the command word of the next transaction, the host having presented it (R30, R70). -/
theorem step_idle_eq {s : State} {t : Transaction} {rest : List Transaction} (hph : s.ph = .idle)
    (hs : s.script = t :: rest) : step s = runCommand (s.issued t rest) := by
  have hissue : issueNext s = some (s.issued t rest) := by simp only [issueNext, hs, State.issued]
  simp only [step, hph, idleStep, hissue]

/-- Settles O4: the word that the transaction puts into `CMD` decodes to the command. -/
theorem stepRunsTheDecodedCommand : Obligations.StepRunsTheDecodedCommand := by
  intro s t rest i hph hs hd
  have hcmd : (s.issued t rest).cmd.value = t.cmd := rfl
  rw [step_idle_eq hph hs, runCommand, hcmd, hd]
  rfl

/-- A word of 0x03 or above is reserved (R72, R78). -/
theorem decode_reserved {cmd : Byte} (h : 0x03 ≤ cmd.toNat) : ∃ e, decode cmd = .error e := by
  have hne {c : Byte} (hc : c.toNat < 3) : cmd ≠ c := fun he => by rw [he] at h; omega
  unfold decode
  rw [if_neg (hne (by decide)), if_neg (hne (by decide)), if_neg (hne (by decide))]
  split <;> exact ⟨_, rfl⟩

/-- Settles O5: the reserved word does not decode, and the raised error writes the answer. -/
theorem reservedWordIsAnswered : Obligations.ReservedWordIsAnswered := by
  intro s t rest hph hs hword
  obtain ⟨e, hd⟩ := decode_reserved hword
  have hcmd : (s.issued t rest).cmd.value = t.cmd := rfl
  rw [step_idle_eq hph hs, runCommand, hcmd, hd]
  rfl

/-- Settles O7: in `DONE` the step hands over the response. -/
theorem takingTheResponseGoesIdle : Obligations.TakingTheResponseGoesIdle := fun _ _ => step_done_takes

/-! ### Reset -/

/-- The digit table in closed form: the decimal digits, then the letters from 0x61 (R22). -/
theorem digits_toNat : ∀ i : Fin 32, (digits[i]).toNat = if i.val < 10 then 0x30 + i.val else 0x61 + (i.val - 10) := by
  decide

/-- Settles O9: the constants are R21's to R25's, no register holds a value, and each buffer is as long as its length
register says. -/
theorem resetLeavesOnlyConstants : Obligations.ResetLeavesOnlyConstants :=
  ⟨rfl, digits_toNat, rfl, rfl, rfl, rfl, rfl, rfl, rfl, rfl, rfl⟩

/-! ### Hex text -/

theorem hexDigit_eq_getElem? (h : Vector Byte 32) (n : BitVec 4) : some (hexDigit h n) = h.toList[n.toNat]? := by
  simp [hexDigit]

/-- Digits `2j` and `2j + 1` of a hex text are those of the high and the low nibble of byte `j` (R53, R81). -/
theorem hexText_getElem? (h : Vector Byte 32) {bs : Bytes} {j : Nat} {b : Byte} (hb : bs[j]? = some b) :
    (hexText h bs)[2 * j]? = h.toList[b.toNat / 16]? ∧ (hexText h bs)[2 * j + 1]? = h.toList[b.toNat % 16]? := by
  induction bs generalizing j with
  | nil => simp at hb
  | cons c bs ih =>
    cases j with
    | zero =>
      obtain rfl : b = c := (Option.some.inj hb).symm
      have hhigh : (b.extractLsb' 4 4).toNat = b.toNat / 16 := by
        simp [BitVec.extractLsb'_toNat, Nat.shiftRight_eq_div_pow]; omega
      have hlow : (b.extractLsb' 0 4).toNat = b.toNat % 16 := by simp [BitVec.extractLsb'_toNat]
      rw [← hhigh, ← hlow]
      exact ⟨hexDigit_eq_getElem? h _, hexDigit_eq_getElem? h _⟩
    | succ j => exact ih hb

/-- Settles O41: GEN.HEX reads the whole digest and writes its hex text. -/
theorem chainTextIsTheDigestInHex : Obligations.ChainTextIsTheDigestInHex := by
  intro s hlen
  have hread : s.dig.value.take 16 = s.dig.value := List.take_of_length_le hlen.le
  have htext : (hexText s.con.h s.dig.value).length = 32 := by rw [hexText_length, hlen]
  refine ⟨hexText s.con.h s.dig.value, ?_, htext, fun j b => hexText_getElem? s.con.h⟩
  refine genHex_eq_ok.2 ⟨hlen.ge, ?_⟩
  simp only [hread, State.putCode, State.setKidx, htext]

/-! ### The closed forms -/

/-- Settles O24: the closed form's length is `symbolCount`, and its cursor five bits on for each symbol. -/
theorem encLengthAndFinalCursor : Obligations.EncLengthAndFinalCursor := by
  intro s t bs hh hp ht
  obtain ⟨tmp, g, hdone⟩ := encCommand_answers finalRaw hh hp
  obtain rfl : encDone finalRaw s bs tmp g = t := Except.ok.inj (hdone.symm.trans (toOutcome_eq_next.1 ht))
  refine ⟨rfl, encText_length _ _ _, rfl, ?_⟩
  have hcursor : 5 * symbolCount bs.length / 4 = 2 * bs.length ∨ 5 * symbolCount bs.length / 4 = 2 * bs.length + 1 := by
    unfold symbolCount
    omega
  exact hcursor.imp (congrArg Reg.of) (congrArg Reg.of)

/-- A GEN whose checks both pass ends in the state of the closed form (R132). -/
theorem gen_completes (fr : FinalRaw) {s : State} {bs : Bytes} (hh : s.con.h = digits) (hp : s.holdsPayload bs)
    (hlen : bs.length = patternLength (selectedConfig s)) (hchr : bs.all isAlphanumeric = true) :
    ∃ tmp g, gen fr s = .ok (genDone fr s (selectedConfig s) bs tmp g) := by
  obtain ⟨tmp, g, h⟩ := genBody_answers fr hh hp
  refine ⟨tmp, g, ?_⟩
  rw [gen, if_pos ((genLen_iff hp).2 hlen), genChr_answers hp, ok_bind, if_pos hchr]
  exact h

/-- A final digest has 16 bytes, and its encoding 26 symbols (R139). -/
theorem genCode_length (fr : FinalRaw) (con : Constants) (cfg : VariantConfig) (bs : Bytes) :
    (genCode fr con cfg bs).length = bs.length + 26 := by
  simp [genCode, finalDigest, symbolCount]

/-- Settles O34: V1 asks for `2 + 4` characters and has two keys, so its chain is two steps. -/
theorem genV1OfSixCharacters : Obligations.GenV1OfSixCharacters := by
  intro s bs hcon hp hlen hchr
  have hcfg : selectedConfig (s.select 0) = variantV1 := congrArg (fun c => c.vr.v1) hcon
  obtain ⟨tmp, g, hgen⟩ := gen_completes finalRaw (s := s.select 0) (bs := bs) (congrArg Constants.h hcon) hp
    (by rw [hcfg, hlen]; rfl) hchr
  rw [hcfg] at hgen
  refine ⟨_, toOutcome_eq_next.2 hgen, rfl, ?_, ?_, ?_⟩
  · exact congrArg Reg.of (by rw [genCode_length, hlen])
  · exact congrArg Reg.of (by rw [State.select_con, hcon]; rfl)
  · have ht : (s.select 0).con.t = alphabet := congrArg Constants.t hcon
    simp only [genDone, genCode, encoded, ht]

end Sys2Proof.Machine
end

section
/-! SUPPORT. Where a step stops and where it cannot: a payload shorter than `ILEN` is a fault of every command that reads it,
and between commands a core whose host keeps A3 always answers (20_memory.md R62; 60_exceptions.md R194). -/

namespace Sys2Proof.Machine

/-! ### Between commands -/

/-- In canonical memory `OUT` has the bytes that `OLEN` counts, so there is a response to show (R50, R76). -/
theorem shows_of_wf {s : State} (h : Memory.wf s = true) : ∃ r, s.shows r := by
  obtain ⟨holen, -⟩ := memory_wf.1 h
  exact ⟨_, response_eq_ok.2 ⟨holen.le, rfl⟩⟩

/-- A core without a transaction to serve stays as it is (R222, R233). -/
theorem step_idle_waits {s : State} (hph : s.ph = .idle) (hs : s.script = []) : step s = .next s := by
  simp only [step, hph, idleStep, issueNext, hs]

/-- Settles O14: in `IDLE` the core waits or answers the next transaction, and in `DONE` the invariant gives it a response to
hand over. -/
theorem quietCoreNeverStops : Obligations.QuietCoreNeverStops := by
  intro s hinv ⟨hph, hwf⟩
  obtain hidle | hdone := hph
  · cases hs : s.script with
    | nil => exact ⟨s, step_idle_waits hidle hs, .inl hidle, hwf⟩
    | cons t rest =>
      obtain ⟨ht, hrest⟩ := List.forall_mem_cons.1 (hs ▸ hwf)
      obtain ⟨u, hu, ha⟩ := step_idle_answers hidle hs hinv.digitTable ht
      exact ⟨u, hu, .inr ha.ph, ha.script ▸ hrest⟩
  · obtain ⟨r, hr⟩ := shows_of_wf hinv.memory
    exact ⟨_, step_done_takes hdone hr, .inl rfl, hwf⟩

/-! ### Payloads shorter than `ILEN` -/

/-- A range that does not lie in the space is a fault, at the first index beyond it (R62). -/
theorem memReadRange_short {s : State} {sp : Space} {n : Nat} (h : (s.space sp).length < n) :
    memReadRange s sp n = .error (.outOfRange sp (s.space sp).length) :=
  if_neg (Nat.not_le_of_lt h)

/-- The first read of `ENC` is that of its payload (R100). -/
theorem encCommand_short (fr : FinalRaw) {s : State} (h : s.inp.length < s.ilen.value) :
    encCommand fr s = .error (.outOfRange .inp s.inp.length) := by
  have hread := memReadRange_short (s := s) (sp := .inp) h
  rw [encCommand, encEntry, hread]
  rfl

/-- The first read of a GEN that passes its length check is that of its payload (R133, R134). -/
theorem gen_short (fr : FinalRaw) {s : State} (hlen : s.ilen.value = patternLength (selectedConfig s))
    (h : s.inp.length < s.ilen.value) : gen fr s = .error (.outOfRange .inp s.inp.length) := by
  have hread := memReadRange_short (s := s) (sp := .inp) h
  rw [gen, if_pos ((genLen_eq_true s).2 hlen), genChr, hread]
  rfl

/-- Settles O20: each command reads its whole payload before it answers, a GEN after its length check. -/
theorem shortPayloadsAreFaults : Obligations.ShortPayloadsAreFaults := by
  intro s h
  refine ⟨congrArg toOutcome (encCommand_short finalRaw h), fun hlen => ?_, fun hlen => ?_⟩
  · exact congrArg toOutcome (gen_short finalRaw (s := s.select 0) hlen h)
  · exact congrArg toOutcome (gen_short finalRaw (s := s.select 1) hlen h)

end Sys2Proof.Machine
end

section
/-! SUPPORT. Several instances: a step of one of them is the core's own step, and what any interleaving does to one is what
it does when it runs alone for as many steps (60_exceptions.md R208; 20_memory.md R64). -/

namespace Sys2Proof.Machine

/-! ### One step among several instances -/

/-- Core `k` steps exactly if it exists and the core's step answers on it, and its next state takes its place. -/
theorem stepInstance_eq_some {k : Nat} {cores after : List State} :
    stepInstance k cores = some after ↔
      ∃ s t, cores[k]? = some s ∧ step s = .next t ∧ after = cores.set k t := by
  unfold stepInstance
  cases hs : cores[k]? with
  | none => simp
  | some s => cases ht : step s <;> simp [ht, eq_comm (a := after)]

/-- Replacing an element that exists, by what stands at each index. -/
theorem eq_set_iff_getElem? {α : Type} {l l' : List α} {k : Nat} {a : α} (hk : k < l.length) :
    l' = l.set k a ↔ l'.length = l.length ∧ l'[k]? = some a ∧ ∀ j, j ≠ k → l'[j]? = l[j]? := by
  constructor
  · rintro rfl
    exact ⟨List.length_set, List.getElem?_set_self hk, fun j hj => List.getElem?_set_ne hj.symm⟩
  · rintro ⟨-, hself, hother⟩
    refine List.ext_getElem? fun j => ?_
    by_cases hj : j = k
    · rw [hj, hself, List.getElem?_set_self hk]
    · rw [hother j hj, List.getElem?_set_ne (Ne.symm hj)]

/-- Two steps of different instances that both happen give the same in the other order. -/
theorem stepInstance_swap {j k : Nat} (hjk : j ≠ k) {cores after : List State}
    (h : (stepInstance j cores).bind (stepInstance k) = some after) :
    (stepInstance k cores).bind (stepInstance j) = some after := by
  obtain ⟨mid, hj, hk⟩ := Option.bind_eq_some_iff.1 h
  obtain ⟨s, t, hs, hst, rfl⟩ := stepInstance_eq_some.1 hj
  obtain ⟨s', t', hs', hst', rfl⟩ := stepInstance_eq_some.1 hk
  rw [List.getElem?_set_ne hjk] at hs'
  have hfirst : stepInstance k cores = some (cores.set k t') := stepInstance_eq_some.2 ⟨s', t', hs', hst', rfl⟩
  rw [hfirst, Option.bind_some, List.set_comm t t' hjk]
  exact stepInstance_eq_some.2 ⟨s, t, by rw [List.getElem?_set_ne hjk.symm, hs], hst, rfl⟩

/-- Settles O45: a step replaces one element of the list, and replacements at two indices commute. -/
theorem instancesDoNotInterfere : Obligations.InstancesDoNotInterfere := by
  refine ⟨fun cores after k => ?_, fun cores j k hjk => ?_⟩
  · refine stepInstance_eq_some.trans (exists₂_congr fun s t => and_congr_right fun hs => and_congr_right fun _ => ?_)
    exact eq_set_iff_getElem? (List.getElem?_eq_some_iff.1 hs).1
  · exact Option.ext fun after => ⟨stepInstance_swap hjk, stepInstance_swap hjk.symm⟩

/-! ### Any interleaving -/

/-- A run that answers has made its first step. -/
theorem step_of_coreRun_succ {M : Host.Core} {n : Nat} {s t : M.State} (h : M.run (n + 1) s = .next t) :
    ∃ u, M.step s = .next u := by
  rw [Host.Core.run] at h
  cases hu : M.step s with
  | next u => exact ⟨u, rfl⟩
  | fault f => simp [hu] at h
  | refused r => simp [hu] at h

/-- After a step of core `j`, what is left of the schedule brings each core, alone, to where the whole schedule would have
brought it: `j` has made the first of its steps, and any other core has all of its own before it. -/
theorem coreRun_after_stepInstance {j k : Nat} {rest : List Nat} {cores mid : List State} {s : State}
    (hstep : stepInstance j cores = some mid) (hk : cores[k]? = some s) :
    ∃ s' : State, mid[k]? = some s' ∧ core.run ((j :: rest).count k) s = core.run (rest.count k) s' := by
  obtain ⟨s0, u, hs0, hu, rfl⟩ := stepInstance_eq_some.1 hstep
  obtain ⟨hj, -⟩ := List.getElem?_eq_some_iff.1 hs0
  by_cases hkj : k = j
  · subst hkj
    cases hs0.symm.trans hk
    exact ⟨u, List.getElem?_set_self hj, by rw [List.count_cons_self, coreRun_succ (M := core) hu]⟩
  · exact ⟨s, by rw [List.getElem?_set_ne (Ne.symm hkj), hk], by rw [List.count_cons_of_ne (Ne.symm hkj)]⟩

/-- Whatever the interleaving, core `k` comes to the state that it comes to alone, in the steps the schedule gives it
(R208). The schedule names cores that exist, and each of them runs its steps alone without a stop. -/
theorem runInstances_eq_runs_alone (schedule : List Nat) (cores : List State)
    (hexists : ∀ k ∈ schedule, k < cores.length)
    (hruns : ∀ (k : Nat) (s : State), cores[k]? = some s → ∃ t : State, core.run (schedule.count k) s = .next t) :
    ∃ after, runInstances schedule cores = some after ∧ after.length = cores.length ∧
      ∀ (k : Nat) (s : State), cores[k]? = some s →
        ∃ t : State, core.run (schedule.count k) s = .next t ∧ after[k]? = some t := by
  induction schedule generalizing cores with
  | nil => exact ⟨cores, rfl, rfl, fun k s hs => ⟨s, rfl, hs⟩⟩
  | cons j rest ih =>
    obtain ⟨hj, hrest⟩ := List.forall_mem_cons.1 hexists
    have hs : cores[j]? = some cores[j] := List.getElem?_eq_getElem hj
    obtain ⟨t, ht⟩ := hruns j _ hs
    rw [List.count_cons_self] at ht
    obtain ⟨u, hu⟩ : ∃ u : State, step cores[j] = .next u := step_of_coreRun_succ (M := core) ht
    have hstep : stepInstance j cores = some (cores.set j u) := stepInstance_eq_some.2 ⟨_, u, hs, hu, rfl⟩
    have hlen : (cores.set j u).length = cores.length := List.length_set
    have hruns' : ∀ (k : Nat) (s' : State), (cores.set j u)[k]? = some s' →
        ∃ t : State, core.run (rest.count k) s' = .next t := fun k s' hk => by
      obtain ⟨hlt, -⟩ := List.getElem?_eq_some_iff.1 hk
      have hbefore : cores[k]? = some cores[k] := List.getElem?_eq_getElem (hlen ▸ hlt)
      obtain ⟨s'', hmid, heq⟩ := coreRun_after_stepInstance (rest := rest) hstep hbefore
      cases hmid.symm.trans hk
      exact heq ▸ hruns k _ hbefore
    obtain ⟨after, hafter, hlength, hends⟩ := ih (cores.set j u) (hlen ▸ hrest) hruns'
    refine ⟨after, by rw [runInstances, hstep, Option.bind_some, hafter], hlength.trans hlen, fun k s hk => ?_⟩
    obtain ⟨s', hmid, heq⟩ := coreRun_after_stepInstance (rest := rest) hstep hk
    exact heq ▸ hends k s' hmid

/-- Settles O46: alone, a core serves its script in two steps for each transaction, and the interleaving brings it to the
same state. -/
theorem everyInterleavingServesEachInstance : Obligations.EveryInterleavingServesEachInstance := by
  intro cores schedule hexists hcores
  have halone : ∀ (k : Nat) (s : State), cores[k]? = some s →
      ∃ t : State, core.run (schedule.count k) s = .next t ∧ t.ph = .idle ∧ t.script = [] ∧ t.con = s.con ∧
        t.taken = s.taken ++ s.script.map (commandResponse finalRaw s.con) := fun k s hs => by
    obtain ⟨hph, hh, hwf, hcount⟩ := hcores k s hs
    rw [hcount]
    exact runServesEveryTransaction s s.script hph rfl hh hwf
  obtain ⟨after, hafter, hlength, hends⟩ := runInstances_eq_runs_alone schedule cores hexists fun k s hs =>
    (halone k s hs).imp fun _ => And.left
  refine ⟨after, hafter, hlength, fun k s hs => ?_⟩
  obtain ⟨t, ht, hserved⟩ := halone k s hs
  obtain ⟨t', ht', hget⟩ := hends k s hs
  cases ht.symm.trans ht'
  exact ⟨t, hget, hserved⟩

end Sys2Proof.Machine
end

section
/-! SUPPORT. Command words and characters: the decoder and the encoder are inverse, a placed word is the one the next step
fetches, and the uppercase mapping byte by byte (30_encoding.md R71, R72, R78 to R80). -/

namespace Sys2Proof.Machine

/-! ### The opcode map -/

theorem encode_genV1 : encode .genV1 = 0x00 := rfl

theorem encode_genV2 : encode .genV2 = 0x01 := rfl

theorem encode_enc : encode .enc = 0x02 := rfl

/-- A command is decoded from its own word and from no other (R72). -/
theorem decode_eq_ok {cmd : Byte} {i : Instr} : decode cmd = .ok i ↔ cmd = encode i := by
  constructor
  · intro h
    unfold decode at h
    split_ifs at h with h0 h1 h2 <;> cases h
    · exact h0
    · exact h1
    · exact h2
  · rintro rfl
    cases i <;> rfl

/-- The words below the reserved ones are those of the three commands (R72). -/
theorem eq_encode_of_lt {cmd : Byte} (h : cmd.toNat < 3) : ∃ i, cmd = encode i := by
  obtain h0 | h1 | h2 : cmd.toNat = 0 ∨ cmd.toNat = 1 ∨ cmd.toNat = 2 := by omega
  · exact ⟨.genV1, BitVec.eq_of_toNat_eq h0⟩
  · exact ⟨.genV2, BitVec.eq_of_toNat_eq h1⟩
  · exact ⟨.enc, BitVec.eq_of_toNat_eq h2⟩

/-- The decoder refuses exactly the reserved words (R72, R78). -/
theorem decode_error_iff {cmd : Byte} : (∃ e, decode cmd = .error e) ↔ 0x03 ≤ cmd.toNat := by
  refine ⟨fun ⟨e, he⟩ => not_lt.1 fun hlt => ?_, decode_reserved⟩
  obtain ⟨i, hi⟩ := eq_encode_of_lt hlt
  cases he.symm.trans (decode_eq_ok.2 hi)

/-- Settles O1: a decoded word is the command's own, and each command has one of the three words. -/
theorem opcodeMapIsComplete : Obligations.OpcodeMapIsComplete := by
  refine fun cmd i => ⟨decode_eq_ok.trans ?_, decode_error_iff⟩
  cases i <;> simp [encode_genV1, encode_genV2, encode_enc]

/-- Settles O2: the word is made of the command's fields, and the fields are read back from it. -/
theorem decodeOfEncodeIsTheCommand : Obligations.DecodeOfEncodeIsTheCommand := by
  refine fun i => ⟨decode_eq_ok.2 rfl, ?_⟩
  cases i <;> exact ⟨rfl, rfl⟩

/-- Settles O3: three of the words are commands' own, and the other two are reserved for their `op` and their `rsv`. -/
theorem writtenOutWordsDecode : Obligations.WrittenOutWordsDecode :=
  ⟨decode_eq_ok.2 rfl, decode_eq_ok.2 rfl, decode_eq_ok.2 rfl, rfl, rfl⟩

/-- A command word is laid out as the one byte it is (R75). -/
theorem layOut_byte (w : Byte) : layOut 8 w.toNat = [w] := by
  simp [layOut]

/-- Settles O6: the placed word is the next transaction's, and it decodes to the command. -/
theorem fetchedWordRunsNext : Obligations.FetchedWordRunsNext := by
  intro s i
  have hscript : (s.withFetchWord 8 (encode i).toNat).script =
      { cmd := encode i, ilen := 0, payload := [] } :: s.script := by
    simp [State.withFetchWord, layOut_byte]
  exact stepRunsTheDecodedCommand _ _ _ i rfl hscript (decode_eq_ok.2 rfl)

/-! ### Characters -/

theorem isDigit_iff (c : Byte) : isDigit c = true ↔ 0x30 ≤ c.toNat ∧ c.toNat ≤ 0x39 := by
  simp [isDigit, BitVec.le_def]

theorem isUpper_iff (c : Byte) : isUpper c = true ↔ 0x41 ≤ c.toNat ∧ c.toNat ≤ 0x5A := by
  simp [isUpper, BitVec.le_def]

theorem isLower_iff (c : Byte) : isLower c = true ↔ 0x61 ≤ c.toNat ∧ c.toNat ≤ 0x7A := by
  simp [isLower, BitVec.le_def]

/-- The uppercase mapping as arithmetic (R80). -/
theorem up_toNat (c : Byte) :
    (up c).toNat = if 0x61 ≤ c.toNat ∧ c.toNat ≤ 0x7A then c.toNat - 0x20 else c.toNat := by
  unfold up
  by_cases h : isLower c = true
  · have hrange := (isLower_iff c).1 h
    rw [if_pos h, if_pos hrange]
    exact BitVec.toNat_sub_of_le (BitVec.le_def.2 (show 0x20 ≤ c.toNat by omega))
  · rw [if_neg h, if_neg (mt (isLower_iff c).2 h)]

/-- Settles O60: the lowercase letters move onto the uppercase ones, and the other two classes stay. -/
theorem uppercaseMapsLettersOnly : Obligations.UppercaseMapsLettersOnly := by
  refine fun c => ⟨up_toNat c, fun h => ?_⟩
  have hclass := not_not.1 ((isAlphanumeric_iff c).1 h)
  rw [Bool.or_eq_true, isDigit_iff, isUpper_iff, up_toNat]
  split <;> omega

end Sys2Proof.Machine
end

section
/-! SUPPORT. The unit buffer after ENC.HEX and ENC.UNITS, byte by byte of the Encoder's input (20_memory.md R53;
40_encoder.md R101, R102). -/

namespace Sys2Proof.Machine

theorem highCell_toNat (b : Byte) : ((b.extractLsb' 4 4).setWidth 8).toNat = b.toNat / 16 := by
  simp only [BitVec.toNat_setWidth, BitVec.extractLsb'_toNat, Nat.shiftRight_eq_div_pow]
  omega

theorem lowCell_toNat (b : Byte) : ((b.extractLsb' 0 4).setWidth 8).toNat = b.toNat % 16 := by
  simp only [BitVec.toNat_setWidth, BitVec.extractLsb'_toNat, Nat.shiftRight_zero]
  omega

/-- Cells `2j` and `2j + 1` of the units are the high and the low nibble of byte `j` (R53, R102). -/
theorem unitCells_getElem? {bs : Bytes} {j : Nat} {b : Byte} (hb : bs[j]? = some b) :
    (unitCells bs)[2 * j]?.map BitVec.toNat = some (b.toNat / 16) ∧
      (unitCells bs)[2 * j + 1]?.map BitVec.toNat = some (b.toNat % 16) := by
  induction bs generalizing j with
  | nil => simp at hb
  | cons c bs ih =>
    cases j with
    | zero =>
      obtain rfl : b = c := (Option.some.inj hb).symm
      exact ⟨congrArg some (highCell_toNat b), congrArg some (lowCell_toNat b)⟩
    | succ j => exact ih hb

/-- ENC.HEX and ENC.UNITS write the hex text and the units of `EB`, and nothing else (R101, R102). -/
theorem encHex_encUnits_answers {s : State} (hh : s.con.h = digits) (he : s.elen.value = s.eb.length) :
    (encHex s >>= encUnits) = .ok ((s.putX (hexText digits s.eb)).putU (unitCells s.eb)) := by
  have hhex : encHex s = .ok (s.putX (hexText digits s.eb)) :=
    encHex_eq_ok.2 ⟨he.le, by rw [he, List.take_length, hh]⟩
  rw [hhex, ok_bind]
  refine encUnits_eq_ok.2 ⟨by simp [he], unitCells s.eb, ?_, rfl⟩
  rw [State.putX_con, hh, ← unitValues_hexText]
  exact congrArg _ (List.take_of_length_le (by simp [he]))

/-- Settles O27: the units that ENC.UNITS finds in `H` are the nibbles. -/
theorem unitsAreTheNibbles : Obligations.UnitsAreTheNibbles := by
  intro s hh he
  refine ⟨hexText digits s.eb, unitCells s.eb, (encHex_encUnits_answers hh he).trans ?_, fun j b => unitCells_getElem?⟩
  simp only [State.putX, State.putU, unitCells_length]

end Sys2Proof.Machine
end

section
/-! SUPPORT. The checks of a GEN: what raising an error writes, and everything that a GEN can answer, each answer with the
check that leads to it (41_generator.md R132 to R134; 60_exceptions.md R190 to R199). -/

namespace Sys2Proof.Machine

/-- Settles O19: the error's code and the empty output are all that is written. -/
theorem raiseWritesOnlyTheResponse : Obligations.RaiseWritesOnlyTheResponse := fun _ => ⟨rfl, rfl, rfl⟩

/-- Everything that a GEN can answer: the error of the first check that fails, or else what its processing answers (R132,
R196). -/
theorem gen_eq_ok {fr : FinalRaw} {s t : State} :
    gen fr s = .ok t ↔
      s.ilen.value ≠ patternLength (selectedConfig s) ∧ t = raiseError .invalidLength s ∨
      s.ilen.value = patternLength (selectedConfig s) ∧
        (genChr s = .ok false ∧ t = raiseError .invalidCharacters s ∨ genChr s = .ok true ∧ genBody fr s = .ok t) := by
  unfold gen
  by_cases hlen : s.ilen.value = patternLength (selectedConfig s)
  · rw [if_pos ((genLen_eq_true s).2 hlen)]
    simp [bind_eq_ok, hlen, eq_comm (a := t)]
  · rw [if_neg (mt (genLen_eq_true s).1 hlen)]
    simp [hlen, eq_comm (a := t)]

/-- The processing of a GEN ends in success (R141). -/
theorem genBody_status {fr : FinalRaw} {s t : State} (h : genBody fr s = .ok t) : t.status = .of 0 := by
  obtain ⟨s1, s2, s3, s4, s5, -, -, -, -, -, hcat⟩ := genBody_eq_ok.1 h
  obtain ⟨-, -, rfl⟩ := genCat_eq_ok.1 hcat
  rfl

/-- `STATUS` 1 comes from the length check only (R191). -/
theorem gen_status_invalidLength {fr : FinalRaw} {s t : State} (h : gen fr s = .ok t) (hs : t.status = .of 1) :
    s.ilen.value ≠ patternLength (selectedConfig s) := by
  obtain ⟨hlen, -⟩ | ⟨-, ⟨-, rfl⟩ | ⟨-, hbody⟩⟩ := gen_eq_ok.1 h
  · exact hlen
  · cases hs
  · cases (genBody_status hbody).symm.trans hs

/-- `STATUS` 2 comes from the character check only, which a payload of the right length reaches (R192, R196). -/
theorem gen_status_invalidCharacters {fr : FinalRaw} {s t : State} (h : gen fr s = .ok t) (hs : t.status = .of 2) :
    s.ilen.value = patternLength (selectedConfig s) ∧ genChr s = .ok false := by
  obtain ⟨-, rfl⟩ | ⟨hlen, ⟨hchr, -⟩ | ⟨-, hbody⟩⟩ := gen_eq_ok.1 h
  · cases hs
  · exact ⟨hlen, hchr⟩
  · cases (genBody_status hbody).symm.trans hs

/-- A GEN on a payload of the wrong length raises `InvalidLength`, whatever its bytes are (R191). -/
theorem gen_wrongLength (fr : FinalRaw) {s : State} (hlen : s.ilen.value ≠ patternLength (selectedConfig s)) :
    gen fr s = .ok (raiseError .invalidLength s) :=
  gen_eq_ok.2 (.inl ⟨hlen, rfl⟩)

/-- Settles O35: the length is the first check, and of all that a GEN can answer only its failure has `STATUS` 1. -/
theorem invalidLengthExactlyOnAWrongLength : Obligations.InvalidLengthExactlyOnAWrongLength := by
  intro s
  refine ⟨fun hlen => ?_, fun hlen => ?_, fun t ht hs => ?_, fun t ht hs => ?_⟩
  · exact toOutcome_eq_next.2 (gen_wrongLength finalRaw (s := s.select 0) hlen)
  · exact toOutcome_eq_next.2 (gen_wrongLength finalRaw (s := s.select 1) hlen)
  · exact gen_status_invalidLength (s := s.select 0) (toOutcome_eq_next.1 ht) hs
  · exact gen_status_invalidLength (s := s.select 1) (toOutcome_eq_next.1 ht) hs

/-- The character check fails exactly on a payload with a byte outside the classes (R134). -/
theorem genChr_eq_false {s : State} {bs : Bytes} (hp : s.holdsPayload bs) :
    genChr s = .ok false ↔ ∃ c ∈ bs, outsideClasses c := by
  rw [genChr_answers hp, Except.ok.injEq, ← Bool.not_eq_true, all_isAlphanumeric_iff, not_not]

/-- A GEN on a payload of the right length with a bad byte raises `InvalidCharacters` (R192). -/
theorem gen_badByte (fr : FinalRaw) {s : State} {bs : Bytes} (hp : s.holdsPayload bs)
    (hlen : bs.length = patternLength (selectedConfig s)) (hbad : ∃ c ∈ bs, outsideClasses c) :
    gen fr s = .ok (raiseError .invalidCharacters s) :=
  gen_eq_ok.2 (.inr ⟨hp.length.symm.trans hlen, .inl ⟨(genChr_eq_false hp).2 hbad, rfl⟩⟩)

/-- A GEN that answers `STATUS` 2 has a payload of the right length with a bad byte (R192). -/
theorem badByte_of_status {fr : FinalRaw} {s t : State} {bs : Bytes} (hp : s.holdsPayload bs) (h : gen fr s = .ok t)
    (hs : t.status = .of 2) : bs.length = patternLength (selectedConfig s) ∧ ∃ c ∈ bs, outsideClasses c := by
  obtain ⟨hlen, hchr⟩ := gen_status_invalidCharacters h hs
  exact ⟨hp.length.trans hlen, (genChr_eq_false hp).1 hchr⟩

/-- Settles O36: the characters are the second check, and of all that a GEN can answer only its failure has `STATUS` 2. -/
theorem invalidCharactersExactlyOnABadByte : Obligations.InvalidCharactersExactlyOnABadByte := by
  intro s bs hp
  refine ⟨fun hlen hbad => ?_, fun hlen hbad => ?_, fun t ht hs => ?_, fun t ht hs => ?_⟩
  · exact toOutcome_eq_next.2 (gen_badByte finalRaw (s := s.select 0) hp hlen hbad)
  · exact toOutcome_eq_next.2 (gen_badByte finalRaw (s := s.select 1) hp hlen hbad)
  · exact badByte_of_status (s := s.select 0) hp (toOutcome_eq_next.1 ht) hs
  · exact badByte_of_status (s := s.select 1) hp (toOutcome_eq_next.1 ht) hs

end Sys2Proof.Machine
end

section
/-! SUPPORT. The host wrapper: a run of it is the response of the pure function, printed (30_encoding.md R86 to R88;
60_exceptions.md R200; 70_reset_and_hazards.md R233). -/

namespace Sys2Proof.Machine

/-- Settles O47: the transaction carries the word of the variant's command. -/
theorem commandLineDefaultsToV2 : Obligations.CommandLineDefaultsToV2 := by
  intro p
  simp only [CommandLine.transaction, CommandLine.instr, generatorOf, Option.getD, encode_genV1, encode_genV2, and_self]

/-- `ILEN` of a command line's transaction counts its pattern (A3). -/
theorem CommandLine.transaction_wf (line : CommandLine) : line.transaction.wf = true := beq_self_eq_true _

/-- A run of the wrapper finishes, and does with the core's response what R88 and R200 say. -/
theorem runCommandLine_answers (line : CommandLine) :
    runCommandLine line = some (cliResult (commandResponse finalRaw constants line.transaction)) := by
  obtain ⟨u, hu, ha⟩ := step_idle_answers (s := { State.reset with script := [line.transaction] }) rfl rfl rfl
    line.transaction_wf
  have hresponse : response u = .ok (commandResponse finalRaw constants line.transaction) := ha.shows
  simp only [runCommandLine, hu, hresponse]

/-- `CLI_LINE_END` is "empty or a newline" (R88, D17). -/
theorem cliLineEnd_cases : Config.cliLineEnd = [] ∨ Config.cliLineEnd = [0x0A] := by
  unfold Config.cliLineEnd
  split
  · exact .inr rfl
  · exact .inl rfl

/-- On success the wrapper prints the code (R88). -/
theorem cliResult_of_ok {r : Response} (h : r.status = 0) :
    (cliResult r).codeLine = some (0x2F :: r.out ++ Config.cliLineEnd) ∧ (cliResult r).exitCode = 0 := by
  rw [cliResult, if_pos (show r.status = statusOk from h)]
  exact ⟨rfl, rfl⟩

/-- On an error the wrapper prints no code and exits with a code in 1 to 255 (R200). -/
theorem cliResult_of_error {r : Response} (h : r.status ≠ 0) :
    (cliResult r).codeLine = none ∧ 1 ≤ (cliResult r).exitCode ∧ (cliResult r).exitCode ≤ 255 := by
  rw [cliResult, if_neg (show ¬ r.status = statusOk from h)]
  exact ⟨rfl, Nat.le_add_left _ _, (Config.cliFailure r.status).isLt⟩

/-- Settles O48: the core right after reset answers every command line, and the wrapper prints by the answer's status. -/
theorem wrapperPrintsTheCodeOrFails : Obligations.WrapperPrintsTheCodeOrFails := by
  refine fun line => ⟨_, runCommandLine_answers line, fun hok => ?_, cliResult_of_error⟩
  exact ⟨_, cliLineEnd_cases, rfl, cliResult_of_ok hok⟩

end Sys2Proof.Machine
end

section
/-! SUPPORT. The Encoder's micro-operations one at a time: what each writes, as arithmetic on what it reads (40_encoder.md R101,
R105 to R108). -/

namespace Sys2Proof.Machine

/-! ### Groups as numbers -/

/-- The window is the two units read as a number in base 16 (R105). -/
theorem pairWindow_toNat (u0 : Byte) {u1 : Byte} (h1 : u1.toNat ≤ 15) :
    (pairWindow u0 u1).toNat = 16 * u0.toNat + u1.toNat := by
  have hu1 : u1.toNat % 2 ^ 32 < 2 ^ 4 := by omega
  have hhigh : (u0.toNat % 2 ^ 32) <<< 4 % 2 ^ 32 = u0.toNat <<< 4 := by
    rw [Nat.shiftLeft_eq, Nat.shiftLeft_eq]
    omega
  simp only [pairWindow, BitVec.toNat_or, BitVec.toNat_shiftLeft, BitVec.toNat_setWidth]
  rw [hhigh, ← Nat.shiftLeft_add_eq_or_of_lt hu1, Nat.shiftLeft_eq]
  omega

theorem pairGroup_toNat (window : Word) (rem : Nat) :
    (pairGroup window rem).toNat = window.toNat / 2 ^ (3 - rem) % 32 := by
  simp [pairGroup, BitVec.extractLsb'_toNat, Nat.shiftRight_eq_div_pow]

/-- The group of a final unit is a quarter of its raw value, so one of 0 to 3 (R106). -/
theorem finalGroup_toNat (raw : BitVec 4) : (finalGroup (raw.setWidth 32)).toNat = raw.toNat / 4 := by
  simp only [finalGroup, BitVec.extractLsb'_toNat, BitVec.toNat_ushiftRight, BitVec.toNat_setWidth,
    Nat.shiftRight_eq_div_pow]
  omega

theorem finalGroup_lt (raw : BitVec 4) : (finalGroup (raw.setWidth 32)).toNat < 4 := by
  rw [finalGroup_toNat]
  omega

/-! ### The micro-operations -/

/-- Settles O28: the answer's window and group are the numbers of R105's table. -/
theorem pairTakesFiveBitsBelowRem : Obligations.PairTakesFiveBitsBelowRem := by
  intro s u0 u1 hrem hu0 hu1 _ h1
  have hwindow := pairWindow_toNat u0 h1
  exact ⟨pairWindow u0 u1, pairGroup (pairWindow u0 u1) s.rem.value.toNat,
    encPair_eq_ok.2 ⟨hrem, u0, u1, hu0, hu1, rfl⟩, hwindow, by rw [pairGroup_toNat, hwindow]⟩

/-- Settles O29: the raw value has four bits, and the shift by 2 leaves its upper two. -/
theorem finalUnitIsShiftedByTwo : Obligations.FinalUnitIsShiftedByTwo := by
  intro fr s u hu
  let raw := fr (u.setWidth 4) s.rem.value.toNat
  have hraw : (raw.setWidth 32).toNat = raw.toNat := BitVec.toNat_setWidth_of_le (by decide)
  exact ⟨raw.setWidth 32, finalGroup (raw.setWidth 32), encFinal_eq_ok.2 ⟨u, hu, rfl⟩, hraw,
    by rw [finalGroup_toNat, hraw], Nat.le_of_lt_succ (finalGroup_lt raw)⟩

/-- Settles O31: ENC.ADV divides `REM + 5` by 4, the quotient going to `UC` and the remainder to `REM`. -/
theorem advanceMovesFiveBits : Obligations.AdvanceMovesFiveBits := by
  intro s
  have hrem : (BitVec.ofNat 4 ((s.rem.value.toNat + 5) % 4)).toNat = (s.rem.value.toNat + 5) % 4 :=
    (BitVec.toNat_ofNat _ _).trans (Nat.mod_eq_of_lt (by omega))
  refine ⟨_, _, encAdv_eq s, ?_⟩
  rw [hrem]
  exact ⟨by omega, by omega, fun hsmall => ⟨by omega, by omega⟩, fun hthree => ⟨by omega, by omega⟩⟩

/-- Settles O26: ENC.HEX reads the whole of `EB` and writes its hex text. -/
theorem hexMicroOperationWritesTheDigits : Obligations.HexMicroOperationWritesTheDigits := by
  intro s he
  have hread : s.eb.take s.elen.value = s.eb := List.take_of_length_le he.ge
  exact ⟨hexText s.con.h s.eb, encHex_eq_ok.2 ⟨he.le, by rw [hread]; rfl⟩, hexText_length _ _,
    fun j b => hexText_getElem? s.con.h⟩

/-- Settles O30: ENC.SYM keeps the whole of `EO` and puts the symbol after it. -/
theorem symbolIsAppended : Obligations.SymbolIsAppended := by
  intro s he
  have hread : s.eo.take s.eolen.value = s.eo := List.take_of_length_le he.ge
  refine encSym_eq_ok.2 ⟨he.le, ?_⟩
  rw [hread, State.putEo, List.length_append, List.length_singleton]
  rfl

end Sys2Proof.Machine
end

section
/-! SUPPORT. What the closed form of the Encoder says of the output of `ENC`: which symbols are read from the bit string and
which from `FINAL_RAW`, and which bits of the payload they depend on (40_encoder.md R106, R109 to R114). -/

namespace Sys2Proof.Machine

/-! ### `ENC` in closed form -/

/-- Settles O21: `ENC` is the Encoder's command under the spec's reading of `FINAL_RAW`. -/
theorem encCompletesInClosedForm : Obligations.EncCompletesInClosedForm := by
  intro s bs hh hp
  obtain ⟨tmp, g, h⟩ := encCommand_answers finalRaw hh hp
  exact ⟨tmp, g, toOutcome_eq_next.2 h⟩

/-- Whatever `ENC` answers has the closed form's output (R111). -/
theorem exec_enc_out {s t : State} {bs : Bytes} (hh : s.con.h = digits) (hp : s.holdsPayload bs)
    (ht : exec .enc s = .next t) : t.out = encText finalRaw s.con.t bs := by
  obtain ⟨tmp, g, h⟩ := encCompletesInClosedForm s bs hh hp
  cases h.symm.trans ht
  rfl

theorem symbol_mem (t : Vector Byte 32) (g : BitVec 5) : symbol t g ∈ t.toList :=
  Vector.mem_toList_iff.2 (Vector.getElem_mem _)

/-- Every character of an encoded string is one of the alphabet's (R83, R112). -/
theorem encText_mem {fr : FinalRaw} {t : Vector Byte 32} {bs : Bytes} : ∀ c ∈ encText fr t bs, c ∈ t.toList := by
  intro c hc
  obtain ⟨j, -, rfl⟩ := List.mem_map.1 hc
  exact symbol_mem t _

/-- Settles O23: status and output of the closed form name the payload and `T` only. -/
theorem encIsTotalAndPure : Obligations.EncIsTotalAndPure := by
  intro s bs hh hp
  obtain ⟨tmp, g, ht⟩ := encCompletesInClosedForm s bs hh hp
  refine ⟨_, ht, rfl, fun hnil => by subst hnil; rfl, encText_mem, fun s' htab hh' hp' => ?_⟩
  obtain ⟨tmp', g', ht'⟩ := encCompletesInClosedForm s' bs (hh'.trans hh) hp'
  exact ⟨_, ht', rfl, rfl, congrArg (encText finalRaw · bs) htab⟩

/-! ### Where a symbol comes from -/

/-- While five bits are left, a symbol is read from the bit string (R111). -/
theorem encGroup_of_le (fr : FinalRaw) {bs : Bytes} {j : Nat} (h : 5 * j + 5 ≤ 8 * bs.length) :
    encGroup fr bs j = streamGroup bs j := if_pos h

/-- Where five bits are no longer left, it is made of the last unit (R106). -/
theorem encGroup_of_lt (fr : FinalRaw) {bs : Bytes} {j : Nat} (h : 8 * bs.length < 5 * j + 5) :
    encGroup fr bs j = finalGroup ((fr (lastUnit bs) (5 * j % 4)).setWidth 32) := if_neg (Nat.not_le_of_lt h)

/-- Every symbol but the last has five bits (R110). -/
theorem le_of_succ_lt_symbolCount {n j : Nat} (h : j + 1 < symbolCount n) : 5 * j + 5 ≤ 8 * n := by
  unfold symbolCount at h
  omega

/-- When the length is a multiple of 5, the last symbol has five bits too (R110). -/
theorem le_of_lt_symbolCount {n j : Nat} (hn : n % 5 = 0) (h : j < symbolCount n) : 5 * j + 5 ≤ 8 * n := by
  unfold symbolCount at h
  omega

/-- When it is not, there is a last symbol, and fewer than five bits are left for it (R110). -/
theorem symbolCount_eq_succ {n : Nat} (hn : n % 5 ≠ 0) : ∃ j, symbolCount n = j + 1 ∧ 8 * n < 5 * j + 5 := by
  have hpos : 0 < n := by omega
  unfold symbolCount
  exact ⟨(8 * n + 4) / 5 - 1, by omega, by omega⟩

/-- Encoded strings of one length agree if their groups do. -/
theorem encText_congr {fr fr' : FinalRaw} (t : Vector Byte 32) {bs bs' : Bytes} (hlen : bs.length = bs'.length)
    (h : ∀ j < symbolCount bs.length, encGroup fr bs j = encGroup fr' bs' j) : encText fr t bs = encText fr' t bs' := by
  unfold encText
  rw [← hlen]
  exact List.map_congr_left fun j hj => congrArg (symbol t) (h j (List.mem_range.1 hj))

theorem encText_dropLast (fr : FinalRaw) (t : Vector Byte 32) (bs : Bytes) :
    (encText fr t bs).dropLast = (List.range (symbolCount bs.length - 1)).map fun j => symbol t (streamGroup bs j) := by
  rw [encText, ← List.map_dropLast, List.dropLast_eq_take, List.length_range, List.take_range,
    Nat.min_eq_left (Nat.sub_le _ _)]
  refine List.map_congr_left fun j hj => congrArg (symbol t) (encGroup_of_le fr ?_)
  exact le_of_succ_lt_symbolCount (Nat.add_lt_of_lt_sub (List.mem_range.1 hj))

/-- The last symbol of a length that is not a multiple of 5 is one of the alphabet's first four (R106). -/
theorem encText_getLast? (fr : FinalRaw) (t : Vector Byte 32) {bs : Bytes} (hn : bs.length % 5 ≠ 0) :
    ∃ k : Fin 4, (encText fr t bs).getLast? = some t[k.val] := by
  obtain ⟨j, hcount, hlt⟩ := symbolCount_eq_succ hn
  refine ⟨⟨_, finalGroup_lt (fr (lastUnit bs) (5 * j % 4))⟩, ?_⟩
  rw [encText, hcount, List.range_succ, List.map_append, List.map_singleton, List.getLast?_concat, encGroup_of_lt fr hlt]
  rfl

/-- Settles O22: `FINAL_RAW` occurs in the closed form only where fewer than five bits are left, which is at most at the last
symbol. -/
theorem onlyTheLastSymbolDependsOnFinalRaw : Obligations.OnlyTheLastSymbolDependsOnFinalRaw := by
  intro fr s bs hh hp
  obtain ⟨tmp, g, h⟩ := encCommand_answers fr hh hp
  refine ⟨_, h, ?_, fun hn => ?_, encText_getLast? fr s.con.t⟩
  · exact (encText_dropLast fr _ bs).trans (encText_dropLast finalRaw _ bs).symm
  · refine encText_congr s.con.t rfl fun j hj => ?_
    have hbits := le_of_lt_symbolCount hn hj
    rw [encGroup_of_le fr hbits, encGroup_of_le finalRaw hbits]

/-! ### The bits of a digest that reach the output -/

/-- Two bytes with the same upper six bits agree in each of them. -/
theorem getMsbD_eq_of_ushiftRight {b b' : Byte} (h : b >>> 2 = b' >>> 2) {i : Nat} (hi : i < 6) :
    b.getMsbD i = b'.getMsbD i := by
  have hbit := congrArg (·.getLsbD (5 - i)) h
  have hpos : 2 + (5 - i) = 8 - 1 - i := by omega
  have hlt : i < 8 := by omega
  simpa [BitVec.getMsbD, hpos, hlt] using hbit

/-- Inputs that differ at most in the two lowest bits of byte 15 have the same first 126 bits (R54, R114). -/
theorem streamBit_eq_of_upper {bs bs' : Bytes} (h : bs.take 15 = bs'.take 15)
    (h15 : bs.getD 15 0 >>> 2 = bs'.getD 15 0 >>> 2) {p : Nat} (hp : p < 126) : streamBit bs p = streamBit bs' p := by
  unfold streamBit
  by_cases hbyte : p / 8 < 15
  · have hget : bs[p / 8]? = bs'[p / 8]? := by
      rw [← List.getElem?_take_of_lt hbyte, h, List.getElem?_take_of_lt hbyte]
    rw [List.getD_eq_getElem?_getD, List.getD_eq_getElem?_getD, hget]
  · have hlast : p / 8 = 15 := by omega
    rw [hlast]
    exact getMsbD_eq_of_ushiftRight h15 (by omega)

/-- Inputs with the same five bits at a place have the same group there. -/
theorem streamGroup_congr {bs bs' : Bytes} {j : Nat}
    (h : ∀ p < 5 * j + 5, streamBit bs p = streamBit bs' p) : streamGroup bs j = streamGroup bs' j := by
  unfold streamGroup
  rw [h (5 * j) (by omega), h (5 * j + 1) (by omega), h (5 * j + 2) (by omega), h (5 * j + 3) (by omega),
    h (5 * j + 4) (by omega)]

/-- The group of a final unit, under the spec's reading, is bits 3 and 2 of the byte it comes from (R106, R114). -/
theorem finalGroup_low (b : Byte) : (finalGroup ((b.extractLsb' 0 4).setWidth 32)).toNat = (b >>> 2).toNat % 4 := by
  rw [finalGroup_toNat, BitVec.extractLsb'_toNat, BitVec.toNat_ushiftRight, Nat.shiftRight_eq_div_pow,
    Nat.shiftRight_eq_div_pow]
  omega

/-- Two 16-byte inputs that differ at most in the two lowest bits of byte 15 have the same groups (R114). -/
theorem encGroup_eq_of_upper {bs bs' : Bytes} (hlen : bs.length = 16) (hlen' : bs'.length = 16)
    (h : bs.take 15 = bs'.take 15) (h15 : bs.getD 15 0 >>> 2 = bs'.getD 15 0 >>> 2) (j : Nat) :
    encGroup finalRaw bs j = encGroup finalRaw bs' j := by
  by_cases hj : 5 * j + 5 ≤ 128
  · rw [encGroup_of_le _ (by omega), encGroup_of_le _ (by omega)]
    exact streamGroup_congr fun p hp => streamBit_eq_of_upper h h15 (by omega)
  · rw [encGroup_of_lt _ (by omega), encGroup_of_lt _ (by omega)]
    refine BitVec.eq_of_toNat_eq ?_
    simp only [finalRaw, lastUnit, hlen, hlen', finalGroup_low, h15]

/-- Settles O25: the stream's groups end before the two bits, and the final unit's group leaves them out. -/
theorem encDropsTheTwoLowestBitsOfADigest : Obligations.EncDropsTheTwoLowestBitsOfADigest := by
  intro s t s' t' bs bs' hh hcon hp hp' hlen hlen' h h15 ht ht'
  rw [exec_enc_out hh hp ht, exec_enc_out (hcon ▸ hh) hp' ht', hcon]
  exact encText_congr s.con.t (hlen.trans hlen'.symm) fun j _ => encGroup_eq_of_upper hlen hlen' h h15 j

end Sys2Proof.Machine
end

section
/-! SUPPORT. What a GEN answers, as a function of its payload: its two last operations alone, the closed form of its success,
and the response that it carries in every case (41_generator.md R130 to R145). -/

namespace Sys2Proof.Machine

/-! ### The chain and the composition -/

/-- Settles O42: both reads are of whole buffers. -/
theorem outputIsPatternThenSuffix : Obligations.OutputIsPatternThenSuffix := by
  intro s hpat heo
  refine genCat_eq_ok.2 ⟨hpat.le, heo.le, ?_⟩
  simp [State.putOut, State.finish, statusOk, hpat, heo]

/-- Settles O40: the chain started at the first key, with the rest of the sequence to follow. -/
theorem chainFoldsOverTheKeys : Obligations.ChainFoldsOverTheKeys := fun _ hc => genChain_answers hc

/-! ### Success in closed form -/

/-- Settles O32: after `VSEL <- 0` the selected configuration is V1's. -/
theorem genV1CompletesInClosedForm : Obligations.GenV1CompletesInClosedForm := by
  intro s bs hh hp hlen hchr
  obtain ⟨tmp, g, h⟩ := gen_completes finalRaw (s := s.select 0) hh hp hlen hchr
  exact ⟨tmp, g, toOutcome_eq_next.2 h⟩

/-- Settles O33: after `VSEL <- 1` the selected configuration is V2's, whatever it holds. -/
theorem genV2CompletesInClosedForm : Obligations.GenV2CompletesInClosedForm := by
  intro s bs hh hp hlen hchr
  obtain ⟨tmp, g, h⟩ := gen_completes finalRaw (s := s.select 1) hh hp hlen hchr
  exact ⟨tmp, g, toOutcome_eq_next.2 h⟩

/-! ### Everything that a GEN answers -/

/-- A command other than `ENC` is a GEN, of the variant that it writes into `VSEL` (R130, R131). -/
theorem exec_eq_gen {i : Instr} (hi : i ≠ .enc) : ∃ v, ∀ s, exec i s = toOutcome (gen finalRaw (s.select v)) := by
  cases i with
  | genV1 => exact ⟨0, fun _ => rfl⟩
  | genV2 => exact ⟨1, fun _ => rfl⟩
  | enc => exact absurd rfl hi

/-- What a GEN answers to the payload `bs`: the error of the first check that fails, or else the closed form (R132, R196). -/
theorem gen_cases {fr : FinalRaw} {s t : State} {bs : Bytes} (hh : s.con.h = digits) (hp : s.holdsPayload bs)
    (h : gen fr s = .ok t) :
    bs.length ≠ patternLength (selectedConfig s) ∧ t = raiseError .invalidLength s ∨
      bs.length = patternLength (selectedConfig s) ∧
        (bs.all isAlphanumeric = false ∧ t = raiseError .invalidCharacters s ∨
          bs.all isAlphanumeric = true ∧ ∃ tmp g, t = genDone fr s (selectedConfig s) bs tmp g) := by
  have hcases := gen_eq_ok.1 h
  rw [← hp.length, genChr_answers hp, Except.ok.injEq, Except.ok.injEq] at hcases
  obtain hlen | ⟨hlen, hchr | ⟨hchr, hbody⟩⟩ := hcases
  · exact .inl hlen
  · exact .inr ⟨hlen, .inl hchr⟩
  · obtain ⟨tmp, g, hdone⟩ := genBody_answers fr hh hp
    exact .inr ⟨hlen, .inr ⟨hchr, tmp, g, Except.ok.inj (hbody.symm.trans hdone)⟩⟩

/-- A GEN that answers `STATUS` 0 had an alphanumeric pattern and ends in the state of the closed form (R132). -/
theorem gen_succeeds {fr : FinalRaw} {s t : State} {bs : Bytes} (hh : s.con.h = digits) (hp : s.holdsPayload bs)
    (h : gen fr s = .ok t) (hs : t.status = .of 0) :
    bs.all isAlphanumeric = true ∧ ∃ tmp g, t = genDone fr s (selectedConfig s) bs tmp g := by
  obtain ⟨-, rfl⟩ | ⟨-, ⟨-, rfl⟩ | hdone⟩ := gen_cases hh hp h
  · cases hs
  · cases hs
  · exact hdone

/-- The interface registers hold the response `r`: `STATUS`, `OLEN` and all of `OUT` (R76). -/
def State.Carries (t : State) (r : Response) : Prop := t.status = .of r.status ∧ t.olen = .of r.olen ∧ t.out = r.out

/-- A GEN ends with the response of the pure function in the interface registers (R132, R196). -/
theorem gen_carries {fr : FinalRaw} {s t : State} {bs : Bytes} (hh : s.con.h = digits) (hp : s.holdsPayload bs)
    (h : gen fr s = .ok t) : t.Carries (genResponse fr s.con (selectedConfig s) bs) := by
  unfold genResponse
  obtain ⟨hlen, rfl⟩ | ⟨hlen, ⟨hchr, rfl⟩ | ⟨hchr, tmp, g, rfl⟩⟩ := gen_cases hh hp h
  · rw [if_pos hlen]
    exact ⟨rfl, rfl, rfl⟩
  · rw [if_neg (not_not_intro hlen), if_neg (Bool.eq_false_iff.1 hchr)]
    exact ⟨rfl, rfl, rfl⟩
  · rw [if_neg (not_not_intro hlen), if_pos hchr]
    exact ⟨rfl, rfl, rfl⟩

/-! ### The case of letters -/

/-- The uppercase mapping keeps a byte inside the three classes or outside them (R79, R80). -/
theorem isAlphanumeric_up (c : Byte) : isAlphanumeric (up c) = isAlphanumeric c := by
  rw [Bool.eq_iff_iff, isAlphanumeric_iff, isAlphanumeric_iff, not_iff_not, outsideClasses, outsideClasses, up_toNat]
  split <;> omega

/-- The response of a GEN is a function of the uppercased pattern (R143). -/
theorem genResponse_congr_up (fr : FinalRaw) (con : Constants) (cfg : VariantConfig) {bs bs' : Bytes}
    (h : bs.map up = bs'.map up) : genResponse fr con cfg bs = genResponse fr con cfg bs' := by
  have hlen : bs.length = bs'.length := by simpa using congrArg List.length h
  have hchr : bs.all isAlphanumeric = bs'.all isAlphanumeric := by
    simpa [List.all_map, Function.comp_def, isAlphanumeric_up] using congrArg (List.all · isAlphanumeric) h
  unfold genResponse genCode
  rw [hlen, hchr, h]

/-- Settles O37: both states carry the response of the pure function, which looks at the uppercased pattern only. -/
theorem caseOfLettersDoesNotMatter : Obligations.CaseOfLettersDoesNotMatter := by
  intro i s s' t t' bs bs' hi hcon hh hp hp' hup ht ht'
  obtain ⟨v, hexec⟩ := exec_eq_gen hi
  rw [hexec] at ht ht'
  obtain ⟨hstatus, holen, hout⟩ := gen_carries (s := s.select v) hh hp (toOutcome_eq_next.1 ht)
  obtain ⟨hstatus', holen', hout'⟩ := gen_carries (s := s'.select v) (hcon ▸ hh) hp' (toOutcome_eq_next.1 ht')
  have hcfg : selectedConfig (s'.select v) = selectedConfig (s.select v) :=
    congrArg (fun c : Constants => c.vr.config (variantOf v)) hcon
  have hresponse : genResponse finalRaw (s'.select v).con (selectedConfig (s'.select v)) bs' =
      genResponse finalRaw (s.select v).con (selectedConfig (s.select v)) bs := by
    rw [State.select_con, State.select_con, hcon, hcfg, genResponse_congr_up _ _ _ hup]
  rw [hresponse] at hstatus' holen' hout'
  exact ⟨hstatus.trans hstatus'.symm, holen.trans holen'.symm, hout.trans hout'.symm⟩

/-! ### The shape of a code -/

/-- An uppercased alphanumeric pattern consists of digits and uppercase letters (R80, R142). -/
theorem mem_map_up {bs : Bytes} (h : bs.all isAlphanumeric = true) :
    ∀ c ∈ bs.map up, (0x30 ≤ c.toNat ∧ c.toNat ≤ 0x39) ∨ (0x41 ≤ c.toNat ∧ c.toNat ≤ 0x5A) := by
  intro c hc
  obtain ⟨b, hb, rfl⟩ := List.mem_map.1 hc
  obtain ⟨-, himage⟩ := uppercaseMapsLettersOnly b
  have hclass := himage (List.all_eq_true.1 h b hb)
  rwa [Bool.or_eq_true, isDigit_iff, isUpper_iff] at hclass

theorem genCode_take (fr : FinalRaw) (con : Constants) (cfg : VariantConfig) (bs : Bytes) :
    (genCode fr con cfg bs).take bs.length = bs.map up := List.take_left' (List.length_map up)

theorem genCode_drop (fr : FinalRaw) (con : Constants) (cfg : VariantConfig) (bs : Bytes) :
    (genCode fr con cfg bs).drop bs.length = encText fr con.t (finalDigest con cfg.keys (bs.map up)) :=
  List.drop_left' (List.length_map up)

/-- The last character of a code is the suffix's, which comes from a final unit, 16 being no multiple of 5 (R145). -/
theorem genCode_getLast? (fr : FinalRaw) (con : Constants) (cfg : VariantConfig) (bs : Bytes) :
    ∃ k : Fin 4, (genCode fr con cfg bs).getLast? = some con.t[k.val] := by
  have hdigest : (finalDigest con cfg.keys (bs.map up)).length % 5 ≠ 0 := by simp [finalDigest]
  obtain ⟨k, hk⟩ := encText_getLast? fr con.t hdigest
  exact ⟨k, by rw [genCode, List.getLast?_append, hk, Option.some_or]⟩

/-- Settles O38: a success is the closed form, whose output is the uppercased pattern and 26 encoded symbols. -/
theorem generatedCodeHasItsShape : Obligations.GeneratedCodeHasItsShape := by
  intro i s t bs hi hh hp ht hs
  obtain ⟨v, hexec⟩ := exec_eq_gen hi
  rw [hexec] at ht
  obtain ⟨hchr, tmp, g, rfl⟩ := gen_succeeds (s := s.select v) hh hp (toOutcome_eq_next.1 ht) hs
  have hfront := genCode_take finalRaw s.con (selectedConfig (s.select v)) bs
  have hsuffix := genCode_drop finalRaw s.con (selectedConfig (s.select v)) bs
  refine ⟨congrArg Reg.of (genCode_length _ _ _ _), genCode_length _ _ _ _, ?_, ?_, genCode_getLast? _ _ _ _⟩
  · exact hfront ▸ mem_map_up hchr
  · exact hsuffix ▸ encText_mem

/-- Settles O39: both outputs hold the encoded string of the final digest, under the same alphabet. -/
theorem suffixIsEncOfTheFinalDigest : Obligations.SuffixIsEncOfTheFinalDigest := by
  intro i s t s' t' bs hi hh hp ht hs hcon hp' ht'
  obtain ⟨v, hexec⟩ := exec_eq_gen hi
  rw [hexec] at ht
  obtain ⟨-, tmp, g, rfl⟩ := gen_succeeds (s := s.select v) hh hp (toOutcome_eq_next.1 ht) hs
  refine ⟨?_, hmacMd5_length _ _ _⟩
  rw [exec_enc_out (hcon ▸ hh) hp' ht', hcon]
  rfl

end Sys2Proof.Machine
end

section
/-! SUPPORT. The padded message and the blocks it is cut into (42_hmac_md5.md R164, R165, R173). -/

namespace Sys2Proof.Machine

/-! ### Padding -/

/-- The zero bytes bring the message and its byte 0x80 to 56 modulo 64 (R165). -/
theorem padZeros_fills (n : Nat) : (n + 1 + padZeros n) % 64 = 56 := by
  simp only [padZeros]
  omega

/-- No more zero bytes than that: a whole block of them is never needed (R165). -/
theorem padZeros_lt (n : Nat) : padZeros n < 64 := Nat.mod_lt _ (by decide)

/-- Where R164 defines the bit length, it fits in 64 bits. -/
theorem bitLength_toNat {n : Nat} (h : n < 2 ^ 61) : (bitLength n).toNat = 8 * n := by
  rw [bitLength, if_pos h, BitVec.toNat_ofNat, Nat.mod_eq_of_lt (by omega)]

/-- The bytes of a 64-bit value are its digits in base 256, the lowest first (R165). -/
theorem le64_getElem? {v : BitVec 64} {k : Nat} {b : Byte} (hb : (le64 v)[k]? = some b) :
    b.toNat = v.toNat / 256 ^ k % 256 := by
  have hk : k < 8 := (List.getElem?_eq_some_iff.1 hb).1
  have hbyte : v.extractLsb' (8 * k) 8 = b := by simpa [le64, hk] using hb
  rw [← hbyte, BitVec.extractLsb'_toNat, Nat.shiftRight_eq_div_pow, Nat.pow_mul]

theorem md5Pad_eq (msg : Bytes) :
    md5Pad msg = msg ++ [0x80] ++ List.replicate (padZeros msg.length) 0 ++ le64 (bitLength msg.length) := by
  simp [md5Pad]

/-- Settles O49: the parts of the padded message, each by its own law. -/
theorem paddingFillsWholeBlocks : Obligations.PaddingFillsWholeBlocks := by
  intro msg hlen
  refine ⟨padZeros msg.length, le64 (bitLength msg.length), md5Pad_eq msg, padZeros_fills _, padZeros_lt _,
    le64_length _, fun k b hb => ?_, md5Pad_length msg⟩
  rw [le64_getElem? hb, bitLength_toNat hlen]

/-! ### Blocks -/

/-- The first `n` blocks of a padded message, in order (R164). -/
def cutBlocks : Nat → Bytes → List Bytes
  | 0, _ => []
  | n + 1, p => p.take 64 :: cutBlocks n (p.drop 64)

/-- `md5Blocks` is the fold of `Compress` over the blocks (R164). -/
theorem md5Blocks_eq_foldl (tab : Md5Tables) (n : Nat) (r : Md5Regs) (p : Bytes) :
    md5Blocks tab n r p = (cutBlocks n p).foldl (md5Block tab) r := by
  induction n generalizing r p with
  | zero => rfl
  | succ n ih => exact ih _ _

/-- Whole blocks, cut apart and put together again. -/
theorem cutBlocks_flatten {n : Nat} {p : Bytes} (h : p.length = 64 * n) : (cutBlocks n p).flatten = p := by
  induction n generalizing p with
  | zero => exact (List.eq_nil_of_length_eq_zero h).symm
  | succ n ih =>
    have hrest : (p.drop 64).length = 64 * n := by rw [List.length_drop]; omega
    rw [cutBlocks, List.flatten_cons, ih hrest, List.take_append_drop]

theorem cutBlocks_length {n : Nat} {p : Bytes} (h : p.length = 64 * n) : ∀ b ∈ cutBlocks n p, b.length = 64 := by
  induction n generalizing p with
  | zero => exact List.forall_mem_nil _
  | succ n ih =>
    have hfirst : (p.take 64).length = 64 := by rw [List.length_take]; omega
    have hrest : (p.drop 64).length = 64 * n := by rw [List.length_drop]; omega
    exact List.forall_mem_cons.2 ⟨hfirst, ih hrest⟩

/-- The steps write working registers only: the chaining words stay (R172). -/
theorem md5Steps_chaining (tab : Md5Tables) (steps : List (Fin 64)) (r : Md5Regs) :
    let t := steps.foldl (md5Step tab) r
    t.a0 = r.a0 ∧ t.b0 = r.b0 ∧ t.c0 = r.c0 ∧ t.d0 = r.d0 := by
  induction steps generalizing r with
  | nil => exact ⟨rfl, rfl, rfl, rfl⟩
  | cons i steps ih => exact ih (md5Step tab r i)

/-- `Compress` adds to each chaining word the working word after the steps (R173). -/
theorem md5Block_chaining (tab : Md5Tables) (r : Md5Regs) (blk : Bytes) :
    let t := md5Block tab r blk
    let w := md5Rounds tab (md5Load blk r)
    t.a0 = r.a0 + w.a ∧ t.b0 = r.b0 + w.b ∧ t.c0 = r.c0 + w.c ∧ t.d0 = r.d0 + w.d := by
  obtain ⟨ha, hb, hc, hd⟩ := md5Steps_chaining tab (List.finRange 64) (md5Load blk r)
  exact ⟨congrArg (· + _) ha, congrArg (· + _) hb, congrArg (· + _) hc, congrArg (· + _) hd⟩

/-- Settles O59: a call folds over the blocks that its padded message is cut into. -/
theorem md5FoldsOverTheBlocks : Obligations.Md5FoldsOverTheBlocks := by
  intro tab msg
  have hwhole : (md5Pad msg).length = 64 * ((md5Pad msg).length / 64) :=
    (Nat.mul_div_cancel' ⟨_, md5Pad_length msg⟩).symm
  refine ⟨cutBlocks ((md5Pad msg).length / 64) (md5Pad msg), md5Start tab msg, cutBlocks_flatten hwhole,
    cutBlocks_length hwhole, ⟨rfl, rfl, rfl, rfl⟩, ?_, fun q b => ⟨_, rfl, md5Block_chaining tab q b⟩⟩
  rw [md5, md5Run, md5Blocks_eq_foldl]

end Sys2Proof.Machine
end

section
/-! SUPPORT. HMAC's block key and the shape of its two hashes (42_hmac_md5.md R161, R162, R176). -/

namespace Sys2Proof.Machine

@[simp] theorem md5_length (tab : Md5Tables) (msg : Bytes) : (md5 tab msg).length = 16 := serialize_length _

/-- Settles O50: both end in a serialisation of four words. -/
theorem digestsHaveSixteenBytes : Obligations.DigestsHaveSixteenBytes :=
  fun tab key msg => ⟨md5_length tab msg, hmacMd5_length tab key msg⟩

theorem blockKey_of_long (tab : Md5Tables) {key : Bytes} (h : 64 < key.length) :
    blockKey tab key = md5 tab key ++ List.replicate 48 0 := if_pos h

theorem blockKey_of_short (tab : Md5Tables) {key : Bytes} (h : key.length ≤ 64) :
    blockKey tab key = key ++ List.replicate (64 - key.length) 0 := if_neg (Nat.not_lt.2 h)

@[simp] theorem blockKey_length (tab : Md5Tables) (key : Bytes) : (blockKey tab key).length = 64 := by
  rcases Nat.lt_or_ge 64 key.length with hlong | hshort
  · simp [blockKey_of_long tab hlong]
  · simp [blockKey_of_short tab hshort, hshort]

/-- Settles O51: a key is hashed above 64 bytes and filled with zero bytes up to 64, none of them at 64. -/
theorem blockKeyIsSixtyFourBytes : Obligations.BlockKeyIsSixtyFourBytes := by
  intro tab key
  refine ⟨blockKey_length tab key, blockKey_of_long tab, fun hshort => ?_, fun hexact => ?_⟩
  · exact ⟨64 - key.length, blockKey_of_short tab hshort, Nat.add_sub_cancel' hshort⟩
  · rw [blockKey_of_short tab hexact.le, hexact, Nat.sub_self, List.replicate_zero, List.append_nil]

/-- Settles O52: the pads are the block key with each of its bytes changed. -/
theorem hmacIsTwoHashes : Obligations.HmacIsTwoHashes := by
  intro tab key msg
  have hpad (v : Byte) : ((blockKey tab key).map (· ^^^ v)).length = 64 := by simp
  refine ⟨(blockKey tab key).map (· ^^^ 0x36), (blockKey tab key).map (· ^^^ 0x5C), hmacInner tab key msg,
    hpad _, hpad _, fun i => List.getElem?_map, fun i => List.getElem?_map, rfl, rfl, ?_⟩
  rw [List.length_append, hpad, hmacInner, md5_length]

end Sys2Proof.Machine
end

section
/-! SUPPORT. Words and bytes of MD5, the tables, and one step of the compression (42_hmac_md5.md R166 to R172, R174). -/

namespace Sys2Proof.Machine

/-! ### Words and bytes -/

/-- A byte put above the `k` bits of a word adds `2^k` times its value, if it fits. -/
theorem or_shiftLeft_toNat {low : Word} {k : Nat} (b : Byte) (hlow : low.toNat < 2 ^ k) (hk : k ≤ 24) :
    (low ||| (b.setWidth 32 <<< k)).toNat = low.toNat + 2 ^ k * b.toNat := by
  have hpow : 2 ^ k ≤ 2 ^ 24 := Nat.pow_le_pow_right (by decide) hk
  have hfits : b.toNat * 2 ^ k < 2 ^ 32 := by
    calc b.toNat * 2 ^ k ≤ 255 * 2 ^ 24 := Nat.mul_le_mul (by omega) hpow
      _ < 2 ^ 32 := by decide
  have hshift : (b.setWidth 32 <<< k).toNat = b.toNat <<< k := by
    rw [BitVec.toNat_shiftLeft, BitVec.toNat_setWidth_of_le (by decide), Nat.shiftLeft_eq, Nat.mod_eq_of_lt hfits]
  rw [BitVec.toNat_or, hshift, Nat.or_comm, ← Nat.shiftLeft_add_eq_or_of_lt hlow, Nat.shiftLeft_eq]
  ring

/-- A word is its bytes read as a number in base 256, the first byte the lowest digit (R166). -/
theorem leWord_toNat (b0 b1 b2 b3 : Byte) :
    (leWord b0 b1 b2 b3).toNat = b0.toNat + 256 * b1.toNat + 65536 * b2.toNat + 16777216 * b3.toNat := by
  have h0 : (b0.setWidth 32).toNat = b0.toNat := BitVec.toNat_setWidth_of_le (by decide)
  have h1 := or_shiftLeft_toNat (low := b0.setWidth 32) (k := 8) b1 (by omega) (by decide)
  have h2 := or_shiftLeft_toNat (k := 16) b2 (by rw [h1]; omega) (by decide)
  have h3 := or_shiftLeft_toNat (k := 24) b3 (by rw [h2]; omega) (by decide)
  rw [leWord, h3, h2, h1, h0]
  omega

theorem getElem?_eq_blockByte {blk : Bytes} {i : Nat} (h : i < blk.length) : blk[i]? = some (blockByte blk i) := by
  simp [blockByte, h]

theorem blockWords_getElem (blk : Bytes) (j : Fin 16) : (blockWords blk)[j] = blockWord blk j := by
  change ((List.range 16).map (blockWord blk))[j.val]'(by simp) = _
  simp

/-- Settles O53: each word is made of four bytes that a whole block has. -/
theorem messageWordsAreLittleEndian : Obligations.MessageWordsAreLittleEndian := by
  intro blk j hlen
  have hbyte : ∀ n < 4, blk[4 * j.val + n]? = some (blockByte blk (4 * j.val + n)) :=
    fun n hn => getElem?_eq_blockByte (by omega)
  refine ⟨_, _, _, _, hbyte 0 (by decide), hbyte 1 (by decide), hbyte 2 (by decide), hbyte 3 (by decide), ?_⟩
  rw [blockWords_getElem]
  exact leWord_toNat _ _ _ _

theorem leBytes_getElem? (w : Word) : ∀ n : Fin 4, (leBytes w)[n.val]? = some (w.extractLsb' (8 * n.val) 8)
  | 0 | 1 | 2 | 3 => rfl

/-- Byte `4i + n` of words written one after the other is byte `n` of word `i` (R174). -/
theorem flatMap_leBytes_getElem? (ws : List Word) (i : Nat) (n : Fin 4) :
    (ws.flatMap leBytes)[4 * i + n.val]? = ws[i]?.map (·.extractLsb' (8 * n.val) 8) := by
  induction ws generalizing i with
  | nil => rfl
  | cons w ws ih =>
    cases i with
    | zero =>
      rw [List.flatMap_cons, Nat.mul_zero, Nat.zero_add, List.getElem?_append_left n.isLt]
      exact leBytes_getElem? w n
    | succ i =>
      rw [Nat.mul_succ, Nat.add_right_comm]
      exact ih i

theorem serialize_eq_flatMap (r : Md5Regs) : serialize r = [r.a0, r.b0, r.c0, r.d0].flatMap leBytes := rfl

/-- Settles O54: the digest is the four chaining words written one after the other. -/
theorem digestBytesAreLittleEndian : Obligations.DigestBytesAreLittleEndian := by
  intro r w n
  rw [serialize_eq_flatMap, flatMap_leBytes_getElem?, List.getElem?_eq_getElem w.isLt]
  rfl

/-! ### Tables -/

/-- Settles O55: the index of each of the 64 steps, computed. -/
theorem wordIndicesAreAsWrittenOut : Obligations.WordIndicesAreAsWrittenOut := by
  unfold Obligations.WordIndicesAreAsWrittenOut
  decide

/-- Settles O56: the tables at reset are the literals of R167, R170 and R171. -/
theorem md5TablesHoldTheirValues : Obligations.Md5TablesHoldTheirValues :=
  ⟨rfl, rfl, rfl, rfl, rfl, rfl, rfl⟩

/-- No rotation amount is as large as the width of a word (R175). -/
theorem rotAmounts_lt : ∀ i : Fin 64, rotAmounts[i] < 32 := by decide

/-! ### One step -/

/-- Bit `k` of the choice of `y` or `z` by `x`, the form of the first two round functions (R168). -/
theorem choice_getLsbD (x y z : Word) (k : Fin 32) :
    ((x &&& y) ||| (~~~x &&& z)).getLsbD k = if x.getLsbD k then y.getLsbD k else z.getLsbD k := by
  have hin : (decide (k.val < 32)) = true := decide_eq_true k.isLt
  simp only [BitVec.getLsbD_or, BitVec.getLsbD_and, BitVec.getLsbD_not, hin]
  cases x.getLsbD k <;> simp

/-- Settles O57: range by range of the steps, each operation taken bit by bit. -/
theorem roundFunctionsAreBitwise : Obligations.RoundFunctionsAreBitwise := by
  intro i b c d k
  unfold roundF
  split
  · exact choice_getLsbD b c d k
  split
  · exact choice_getLsbD d b c k
  split
  · rw [BitVec.getLsbD_xor, BitVec.getLsbD_xor]
  · rw [BitVec.getLsbD_xor, BitVec.getLsbD_or, BitVec.getLsbD_not, decide_eq_true k.isLt, Bool.true_and]

theorem rotl32_eq_rotateLeft {s : Nat} (x : Word) (h : s < 32) : rotl32 x s = x.rotateLeft s := by
  rw [BitVec.rotateLeft_def, Nat.mod_eq_of_lt h, rotl32]

/-- Bit `k` of a word rotated left by `s` is the bit `s` places below it, around the word's end (R8). -/
theorem rotl32_getLsbD {s : Nat} (x : Word) (h : s < 32) (k : Fin 32) :
    (rotl32 x s).getLsbD k = x.getLsbD ((k.val + 32 - s) % 32) := by
  rw [rotl32_eq_rotateLeft x h, BitVec.getLsbD_rotateLeft_of_le h]
  rcases Nat.lt_or_ge k.val s with hlow | hhigh
  · have hidx : (k.val + 32 - s) % 32 = 32 - s + k.val := by omega
    simp [hlow, hidx]
  · have hidx : (k.val + 32 - s) % 32 = k.val - s := by omega
    simp [Nat.not_lt.2 hhigh, hidx]

/-- Settles O58: the sum and its rotation, both of the values at the start of the step. -/
theorem compressionStepUsesTheOldValues : Obligations.CompressionStepUsesTheOldValues := by
  intro r i
  refine ⟨_, _, rfl, ?_, fun k => rotl32_getLsbD _ (rotAmounts_lt i) k⟩
  simp only [BitVec.toNat_add, Nat.mod_add_mod]

end Sys2Proof.Machine
end

section
/-! SUPPORT. The constant state is written by nothing: each transition keeps it, and so does every run of micro-operations,
which a step is; an idle core without a transaction keeps all its state (70_reset_and_hazards.md R222, R225, R233). -/

namespace Sys2Proof.Machine

theorem takeResponse_con {s t : State} (h : takeResponse s = .ok t) : t.con = s.con := by
  obtain ⟨r, -, rfl⟩ := takeResponse_eq_ok.1 h
  rfl

/-- No transition writes the constants. -/
theorem Transition.con_eq {s t : State} (hst : Transition s t) : t.con = s.con := by
  cases hst with
  | wait | acceptGen | rejectWord | lengthRight | lengthWrong | charactersRight | charactersWrong | initLoop | loopOver
  | backToGen => rfl
  | acceptEnc _ r rest h =>
    obtain ⟨-, rfl⟩ := encEntry_eq_ok.1 h
    rfl
  | uppercase _ h =>
    obtain ⟨-, rfl⟩ := genUp_eq_ok.1 h
    rfl
  | loadMessage _ h =>
    obtain ⟨-, rfl⟩ := genBytes_eq_ok.1 h
    rfl
  | chainOn _ h | chainOver _ h =>
    obtain ⟨key, -, -, rfl⟩ := genChainStep_eq_ok.1 h
    rfl
  | digestText _ h =>
    obtain ⟨-, rfl⟩ := genHex_eq_ok.1 h
    rfl
  | loadDigest _ h =>
    obtain ⟨-, rfl⟩ := genEncEntry_eq_ok.1 h
    rfl
  | compose _ h =>
    obtain ⟨-, -, rfl⟩ := genCat_eq_ok.1 h
    rfl
  | writeHex _ h =>
    obtain ⟨-, rfl⟩ := encHex_eq_ok.1 h
    rfl
  | writeUnits _ h =>
    obtain ⟨-, us, -, rfl⟩ := encUnits_eq_ok.1 h
    rfl
  | iterate _ _ h => exact (encIteration_encoderFrame h).con
  | exitEnc _ _ h =>
    obtain ⟨-, rfl⟩ := encExit_eq_ok.1 h
    rfl
  | take _ h => exact takeResponse_con h

theorem microOps_con {n : Nat} {s t : State} (h : microOps n s = .ok t) : t.con = s.con := by
  induction n generalizing s with
  | zero =>
    cases h
    rfl
  | succ n ih =>
    obtain ⟨u, hu, h⟩ := bind_eq_ok.1 h
    exact (ih h).trans (transition_of_microOp hu).con_eq

theorem step_con {s t : State} (h : step s = .next t) : t.con = s.con := by
  obtain ⟨n, hn⟩ := stepIsARunOfMicroOperations s
  exact microOps_con (toOutcome_eq_next.1 (hn ▸ h))

/-- Settles O13: a command's frame has the constants in it, a step is a run of transitions that keep them, and the host's two
moves write the interface only. -/
theorem nothingChangesTheConstants : Obligations.NothingChangesTheConstants :=
  ⟨fun _ _ _ h => (exec_ends h).con, fun _ _ => step_con, present_con, fun _ _ => takeResponse_con⟩

/-- Settles O8: the host has nothing to issue, so the step is the waiting one. -/
theorem idleCoreWaits : Obligations.IdleCoreWaits := fun _ => step_idle_waits

end Sys2Proof.Machine
end
